-- ==== Sys2Proof/Word.lean ====
section
/-! DEFINITION. The words of the block: the byte, the 11-bit key and operation word, the 32-bit read result, and what the
host presents at the ports in one step (00_scope.md R12, 30_encoding.md R57, R60). -/

namespace Sys2Proof

/-- A byte: an unsigned 8-bit value, bit 0 least significant (00_scope.md R12). -/
abbrev Byte := BitVec 8

/-- The 11-bit decode key `{st, b}` of the byte stage (30_encoding.md R56). -/
abbrev Key := BitVec 11

/-- The 11-bit operation word: `w[2:0]` is `op`, `w[10:3]` is `arg` (30_encoding.md R57). -/
abbrev OpWord := BitVec 11

/-- The 32-bit read result and the STATUS word (10_state.md R26, 30_encoding.md R64). -/
abbrev Word32 := BitVec 32

/-- What the host presents at the input ports in one step (30_encoding.md R60): the reset input, the operation word and the
operand `t`. `t` is kept as the number presented; the block takes its low TS_W bits (log entry 6). -/
structure PortInput where
  rst : Bool
  w : OpWord
  t : Nat
deriving DecidableEq, Repr

end Sys2Proof
end

