-- ==== Sys2Proof/Config.lean ====
section
/-! DEFINITION. The fixed constants of the protocol, the block's two open parameters, and the one free value
(00_scope.md section 4, 40_checksum.md R68). -/

namespace Sys2Proof

/-- `MAX_PAYLOAD`, the largest number of unescaped payload bytes in one frame (00_scope.md R7). -/
abbrev Config.maxPayload : Nat := 251

/-- `BUF_CAP` = `MAX_PAYLOAD`, the number of cells of the receive buffer (00_scope.md R8). -/
abbrev Config.bufCap : Nat := Config.maxPayload

/-- `START_MARK` (00_scope.md R9). -/
abbrev Config.startMark : Byte := 0xAA#8

/-- `END_MARK` (00_scope.md R9). -/
abbrev Config.endMark : Byte := 0x55#8

/-- `ESC` (00_scope.md R9). -/
abbrev Config.esc : Byte := 0x5C#8

/-- The CRC-8 polynomial in its bit-reversed form (40_checksum.md R68). -/
abbrev Config.crcPoly : Byte := 0x8C#8

/-- The CRC-8 initial value (40_checksum.md R68). -/
abbrev Config.crcSeed : Byte := 0x00#8

/-- A reserved byte: one of the three values the framing uses (00_scope.md R9). -/
def Config.isReserved (b : Byte) : Bool :=
  b == Config.startMark || b == Config.endMark || b == Config.esc

/-- The block's two OPEN parameters (00_scope.md R10, R11; decisions D4, D5), held as plain data: `tsW` is TS_W, the width
of the time operand and of `last_t` and `tmo`; `timeoutDefault` is TIMEOUT_DEFAULT, the value of `tmo` after reset. -/
structure Params where
  tsW : Nat
  timeoutDefault : Nat
deriving DecidableEq, Repr

/-- What the spec asks of the parameters: TS_W ≥ 1 (00_scope.md R10) and TIMEOUT_DEFAULT a TS_W-bit value (R11). -/
abbrev Params.Legal (p : Params) : Prop :=
  1 ≤ p.tsW ∧ p.timeoutDefault < 2 ^ p.tsW

/-- DESIGN CHOICE (log entries 4 and 5), unsafe: the parameters of `State.reset`, which are those of the spec's own test
vectors (95_test_vectors.md: TS_W = 16, TIMEOUT_DEFAULT = 1000). No statement rests on them: statements are about every
state, whose parameters are any, or about `State.powerOn p` for every legal `p`. -/
def Config.resetParams : Params where
  tsW := 16
  timeoutDefault := 1000

/-- FREE VALUE (log entry 7): the byte that a buffer cell held at power-on, as a function of its index. The spec fixes
nothing about it (10_state.md R31; 93_implementation_defined.md: any value, fixed for the run), and nothing in Lean can. -/
opaque Config.powerOnByte : Nat → Byte

end Sys2Proof
end

