-- ==== Sys2Proof/Syntax.lean ====
section
/-! DEFINITION. The instructions: one constructor per row of spec/opcode_table.json, in the table's order. -/

namespace Sys2Proof

/-- The 24 rows of the opcode table. The first fifteen are the byte-stage rows that a FEED performs (30_encoding.md R56);
`b` is the byte where the row does not fix it. The next eight are the port operations (R58) with the operand fields each
uses; fields an operation ignores (R59) are no operands of its constructor. The last is the reset input (R60). -/
inductive Instr where
  /-- RX.IDLE: IDLE, any byte (42_receive_fsm.md R83). -/
  | rxIdle (b : Byte)
  /-- RX.START: AWAIT_START, the byte 0xAA (R84). -/
  | rxStart
  /-- RX.SKIP: AWAIT_START, any other byte (R85). -/
  | rxSkip (b : Byte)
  /-- RX.CHK: AWAIT_CHECKSUM, any byte (R86). -/
  | rxChk (b : Byte)
  /-- RX.LEN0: AWAIT_LENGTH, the byte 0x00 (R87). -/
  | rxLen0
  /-- RX.LENOVF: AWAIT_LENGTH, a byte 0xFC to 0xFF (R88). -/
  | rxLenovf (b : Byte)
  /-- RX.LEN: AWAIT_LENGTH, a byte 0x01 to 0xFB (R89). -/
  | rxLen (b : Byte)
  /-- RX.ESC: IN_DATA, the byte 0x5C (R90). -/
  | rxEsc
  /-- RX.DEND: IN_DATA, the byte 0x55 (R91). -/
  | rxDend
  /-- RX.DSTART: IN_DATA, the byte 0xAA (R92). -/
  | rxDstart
  /-- RX.DATA: IN_DATA, any byte that is not reserved (R93). -/
  | rxData (b : Byte)
  /-- RX.EDATA: IN_ESCAPE, any byte (R94). -/
  | rxEdata (b : Byte)
  /-- RX.END: AWAIT_END, the byte 0x55 (R95). -/
  | rxEnd
  /-- RX.NOEND: AWAIT_END, any other byte (R96). -/
  | rxNoend (b : Byte)
  /-- RX.BADSTATE: the unused state code 7, any byte (R97). -/
  | rxBadstate (b : Byte)
  /-- NOP (43_port_operations.md R112). -/
  | nop
  /-- FEED of the byte `b` at time `now` (R104). -/
  | feed (b : Byte) (now : Nat)
  /-- TICK at time `now` (R106). -/
  | tick (now : Nat)
  /-- START_RX (R107). -/
  | startRx
  /-- STOP_RX (R108). -/
  | stopRx
  /-- SET_TIMEOUT to the value `v` (R109). -/
  | setTimeout (v : Nat)
  /-- READ_BUF of the index `i` (R110). -/
  | readBuf (i : Byte)
  /-- READ_STATUS (R111). -/
  | readStatus
  /-- RESET: the reset input asserted (70_reset_and_hazards.md R130). -/
  | reset
deriving DecidableEq, Repr

/-- The byte-stage rows: those selected by the key `{st, b}` inside a FEED (30_encoding.md R56). -/
def Instr.isRxRow : Instr → Bool
  | .rxIdle _ => true
  | .rxStart => true
  | .rxSkip _ => true
  | .rxChk _ => true
  | .rxLen0 => true
  | .rxLenovf _ => true
  | .rxLen _ => true
  | .rxEsc => true
  | .rxDend => true
  | .rxDstart => true
  | .rxData _ => true
  | .rxEdata _ => true
  | .rxEnd => true
  | .rxNoend _ => true
  | .rxBadstate _ => true
  | .nop => false
  | .feed _ _ => false
  | .tick _ => false
  | .startRx => false
  | .stopRx => false
  | .setTimeout _ => false
  | .readBuf _ => false
  | .readStatus => false
  | .reset => false

end Sys2Proof
end

