-- ==== Sys2Proof/WellFormed.lean ====
section
/-! DEFINITION. Which terms of `Instr` stand for a row of the table: a row's byte lies in the row's range
(30_encoding.md R56, column "byte"). Every port operation is well formed with every operand (R58, R59). -/

namespace Sys2Proof

/-- The byte of a row that does not take every byte is one the row takes (30_encoding.md R56): a byte of an earlier row of
the same state belongs to that row. -/
def Instr.wellFormed : Instr → Bool
  | .rxIdle _ => true
  | .rxStart => true
  | .rxSkip b => b != Config.startMark
  | .rxChk _ => true
  | .rxLen0 => true
  | .rxLenovf b => decide (Config.bufCap < b.toNat)
  | .rxLen b => decide (1 ≤ b.toNat) && decide (b.toNat ≤ Config.bufCap)
  | .rxEsc => true
  | .rxDend => true
  | .rxDstart => true
  | .rxData b => !Config.isReserved b
  | .rxEdata _ => true
  | .rxEnd => true
  | .rxNoend b => b != Config.endMark
  | .rxBadstate _ => true
  | .nop => true
  | .feed _ _ => true
  | .tick _ => true
  | .startRx => true
  | .stopRx => true
  | .setTimeout _ => true
  | .readBuf _ => true
  | .readStatus => true
  | .reset => true

end Sys2Proof
end

