-- ==== Sys2Proof/Decode.lean ====
section
/-! DEFINITION. The decoder and the encoder. The block decodes two kinds of word (30_encoding.md): the key `{st, b}` of the
byte stage (R56) and what the host presents at the ports (R57, R58, R60). Both are total; a key that no row takes is
rejected by name. -/

namespace Sys2Proof

/-- Why a word is no instruction. -/
inductive DecodeReject where
  /-- No row of the key table takes this key. 30_encoding.md R56 says every key has a row, so no key gives this. -/
  | noRow (k : Key)
  /-- `nbits` bits of value `w` are no word of any of the table's three formats. -/
  | notAWord (nbits w : Nat)
deriving DecidableEq, Repr

/-! ## Fields -/

/-- The byte field `k[7:0]` of a key (R56). -/
def keyByte (k : Key) : Byte := k.extractLsb' 0 8

/-- The state field `k[10:8]` of a key (R56). -/
def keyState (k : Key) : BitVec 3 := k.extractLsb' 8 3

/-- The key `{st, b}` (R56). -/
def mkKey (st : BitVec 3) (b : Byte) : Key := st ++ b

/-- The operation code `w[2:0]` (R57). -/
def wordOp (w : OpWord) : BitVec 3 := w.extractLsb' 0 3

/-- The byte operand `w[10:3]` (R57). -/
def wordArg (w : OpWord) : Byte := w.extractLsb' 3 8

/-- The operation word with code `op` and operand `arg` (R57). -/
def mkWord (op : BitVec 3) (arg : Byte) : OpWord := arg ++ op

/-! ## The key table of R56 -/

/-- One row of the key table: a key `k` is the row's when `k &&& mask = pattern`; `instr` is the row's instruction with the
key's byte. -/
structure KeyRow where
  pattern : Key
  mask : Key
  instr : Byte → Instr

/-- Rows 1 to 7 of R56: IDLE and the states before the payload. -/
def keyRowsHeader : List KeyRow :=
  [ { pattern := 0x000#11, mask := 0x700#11, instr := .rxIdle },
    { pattern := 0x1AA#11, mask := 0x7FF#11, instr := fun _ => .rxStart },
    { pattern := 0x100#11, mask := 0x700#11, instr := .rxSkip },
    { pattern := 0x200#11, mask := 0x700#11, instr := .rxChk },
    { pattern := 0x300#11, mask := 0x7FF#11, instr := fun _ => .rxLen0 },
    { pattern := 0x3FC#11, mask := 0x7FC#11, instr := .rxLenovf },
    { pattern := 0x300#11, mask := 0x700#11, instr := .rxLen } ]

/-- Rows 8 to 15 of R56: the payload region, the end of a frame, and the unused state code. -/
def keyRowsPayload : List KeyRow :=
  [ { pattern := 0x45C#11, mask := 0x7FF#11, instr := fun _ => .rxEsc },
    { pattern := 0x455#11, mask := 0x7FF#11, instr := fun _ => .rxDend },
    { pattern := 0x4AA#11, mask := 0x7FF#11, instr := fun _ => .rxDstart },
    { pattern := 0x400#11, mask := 0x700#11, instr := .rxData },
    { pattern := 0x500#11, mask := 0x700#11, instr := .rxEdata },
    { pattern := 0x655#11, mask := 0x7FF#11, instr := fun _ => .rxEnd },
    { pattern := 0x600#11, mask := 0x700#11, instr := .rxNoend },
    { pattern := 0x700#11, mask := 0x700#11, instr := .rxBadstate } ]

/-- The fifteen rows of R56 in their order. -/
def keyRows : List KeyRow := keyRowsHeader ++ keyRowsPayload

/-- The first row of a table that takes the key (R56: "The first row whose `(k & mask) == match`"). -/
def firstRow (k : Key) : List KeyRow → Option KeyRow
  | [] => none
  | r :: rs => if k &&& r.mask = r.pattern then some r else firstRow k rs

/-- The byte-stage decoder (R56). -/
def decodeKey (k : Key) : Except DecodeReject Instr :=
  match firstRow k keyRows with
  | some r => .ok (r.instr (keyByte k))
  | none => .error (.noRow k)

/-! ## The port operations of R58 -/

/-- The operation-code table of R58. Operand fields an operation does not use are ignored (R59). -/
def decodeOp (w : OpWord) (t : Nat) : Instr :=
  if wordOp w = 0#3 then .nop
  else if wordOp w = 1#3 then .feed (wordArg w) t
  else if wordOp w = 2#3 then .tick t
  else if wordOp w = 3#3 then .startRx
  else if wordOp w = 4#3 then .stopRx
  else if wordOp w = 5#3 then .setTimeout t
  else if wordOp w = 6#3 then .readBuf (wordArg w)
  else .readStatus

/-- What the presented input asks for: reset overrides the operation (R57, 70_reset_and_hazards.md R130). -/
def decodeInput (x : PortInput) : Instr :=
  if x.rst then .reset else decodeOp x.w x.t

/-! ## One decoder and one encoder for both kinds of word -/

/-- A word the block decodes: a key of the byte stage, or what stands at the ports. -/
inductive Encoding where
  | key (k : Key)
  | port (x : PortInput)
deriving DecidableEq, Repr

/-- The decoder. -/
def decode : Encoding → Except DecodeReject Instr
  | .key k => decodeKey k
  | .port x => .ok (decodeInput x)

/-- A presented operation with code `op` (R57, R58), reset not asserted. -/
def mkPort (op : BitVec 3) (arg : Byte) (t : Nat) : PortInput where
  rst := false
  w := mkWord op arg
  t := t

/-- The reset input asserted (R60); the operation word and `t` are ignored then. -/
def rstPort : PortInput where
  rst := true
  w := 0#11
  t := 0

/-- The encoder, from the state codes of 10_state.md R17, the table of R56 and the codes of R58. Unused fields are 0. -/
def encode : Instr → Encoding
  | .rxIdle b => .key (mkKey 0#3 b)
  | .rxStart => .key (mkKey 1#3 0xAA#8)
  | .rxSkip b => .key (mkKey 1#3 b)
  | .rxChk b => .key (mkKey 2#3 b)
  | .rxLen0 => .key (mkKey 3#3 0x00#8)
  | .rxLenovf b => .key (mkKey 3#3 b)
  | .rxLen b => .key (mkKey 3#3 b)
  | .rxEsc => .key (mkKey 4#3 0x5C#8)
  | .rxDend => .key (mkKey 4#3 0x55#8)
  | .rxDstart => .key (mkKey 4#3 0xAA#8)
  | .rxData b => .key (mkKey 4#3 b)
  | .rxEdata b => .key (mkKey 5#3 b)
  | .rxEnd => .key (mkKey 6#3 0x55#8)
  | .rxNoend b => .key (mkKey 6#3 b)
  | .rxBadstate b => .key (mkKey 7#3 b)
  | .nop => .port (mkPort 0#3 0#8 0)
  | .feed b now => .port (mkPort 1#3 b now)
  | .tick now => .port (mkPort 2#3 0#8 now)
  | .startRx => .port (mkPort 3#3 0#8 0)
  | .stopRx => .port (mkPort 4#3 0#8 0)
  | .setTimeout v => .port (mkPort 5#3 0#8 v)
  | .readBuf i => .port (mkPort 6#3 i 0)
  | .readStatus => .port (mkPort 7#3 0#8 0)
  | .reset => .port rstPort

/-! ## The table's words by their length -/

/-- The word of spec/opcode_table.json with `nbits` bits and value `w` (log entry 11). The table's three formats are three
separate inputs, so their words overlap, and only the length tells them apart: 1 bit is the reset input (R60), up to 8 bits
are the fixed bits of an operation word (R58), up to 16 bits are a key (R56). The operand `t` has no bits in the table and
is 0. -/
def tableWord (nbits w : Nat) : Except DecodeReject Encoding :=
  if nbits ≤ 1 then
    if w = 1 then .ok (.port rstPort) else .error (.notAWord nbits w)
  else if nbits ≤ 8 then
    if w < 2 ^ 11 then .ok (.port { rst := false, w := BitVec.ofNat 11 w, t := 0 })
    else .error (.notAWord nbits w)
  else if nbits ≤ 16 then
    if w < 2 ^ 11 then .ok (.key (BitVec.ofNat 11 w)) else .error (.notAWord nbits w)
  else .error (.notAWord nbits w)

/-- The decoder on a word of the table, with the reason where it refuses. -/
def decodeTable (nbits w : Nat) : Except DecodeReject Instr :=
  match tableWord nbits w with
  | .ok e => decode e
  | .error r => .error r

/-- The instruction the decoder reads from a word of the table (none where it refuses). -/
def decodeTableWord (nbits w : Nat) : Option Instr :=
  match decodeTable nbits w with
  | .ok i => some i
  | .error _ => none

end Sys2Proof
end

