-- ==== Sys2Proof/Machine/State.lean ====
section
/-! DEFINITION. The state of the block as plain data: the registers of 10_state.md R16 and the receive buffer of R27, beside
the model's own fields for the parameters, the presented operations and the step's outputs; and the reasons to stop. -/

namespace Sys2Proof.Machine

/-- The parse state `st`: the seven states of 10_state.md R17 and the unused code 7, in the order of their codes. -/
inductive RxState where
  /-- 0: reception stopped, bytes are not taken. -/
  | idle
  /-- 1: receiving, scanning for START_MARK. -/
  | awaitStart
  /-- 2: START_MARK seen, the next byte is the CHECKSUM field. -/
  | awaitChecksum
  /-- 3: the next byte is the LENGTH field. -/
  | awaitLength
  /-- 4: in the payload region, not after an ESC. -/
  | inData
  /-- 5: in the payload region, the previous byte was an ESC. -/
  | inEscape
  /-- 6: all payload bytes stored, the next byte must be END_MARK. -/
  | awaitEnd
  /-- 7: unused, no rule reaches it. -/
  | unused7
deriving DecidableEq, Repr

/-- The error kinds of 60_exceptions.md R117, in the order of their codes (30_encoding.md R63). -/
inductive ErrKind where
  | crc
  | frame
  | length
  | overflow
  | timeout
deriving DecidableEq, Repr

/-- The event output of a step (00_scope.md R14, 60_exceptions.md R118). -/
inductive Event where
  | none
  | ready (len : Byte)
  | error (kind : ErrKind)
deriving DecidableEq, Repr

/-- The output record `out = {acc, ev, rdata}` of a step (00_scope.md R14). -/
structure Output where
  acc : Bool
  ev : Event
  rdata : Word32
deriving DecidableEq, Repr

/-- The output record every operation starts from (00_scope.md R14). -/
def Output.clear : Output where
  acc := false
  ev := .none
  rdata := 0#32

/-- The receive buffer's written cells as (index, byte) pairs, indices strictly rising. A cell that is not listed has not
been written since power-on (log entry 7). -/
abbrev Memory := List Host.Cell

/-- The machine's state. `st` to `tmo` and `buf` are the spec's (10_state.md R16, R27); `params`, `inputs` and `out` are the
model's own (log entries 1, 3, 4, 5). The TS_W-bit registers are numbers below `2 ^ params.tsW` (log entry 4). -/
structure State where
  /-- TS_W and TIMEOUT_DEFAULT (00_scope.md R10, R11); no step changes them. -/
  params : Params
  /-- The parse state (10_state.md R17). -/
  st : RxState
  /-- The CHECKSUM field of the frame (R19). -/
  chk : Byte
  /-- The LENGTH field of the frame (R20). -/
  len : Byte
  /-- The write position (R21). -/
  pos : Byte
  /-- The running CRC-8 (R22). -/
  crc : Byte
  /-- `last_t`, the time of the last byte taken (R24). -/
  lastT : Nat
  /-- `tmo`, the timeout duration (R25). -/
  tmo : Nat
  /-- The receive buffer (R27). -/
  buf : Memory
  /-- The operations the host is about to present, oldest first. -/
  inputs : List PortInput
  /-- The outputs of the step that led here. -/
  out : Output
deriving DecidableEq, Repr

/-- Why the machine stops with a fault. The block itself never faults (00_scope.md R14). -/
inductive Fault where
  /-- Raised by RX.DATA and RX.EDATA when the write position is 251 or more, so that it names no cell (20_memory.md R33).
  The precondition of 42_receive_fsm.md R82 rules it out, and no state a run reaches raises it. Safe. -/
  | noSuchCell (index : Nat)
deriving DecidableEq, Repr

/-- Why the model gives a step no meaning. -/
inductive Refusal where
  /-- Raised only by an arm of `exec` that has no meaning yet. Safe. -/
  | notModelled (mnemonic : String)
  /-- `BadState`: raised by every port operation and by RX.BADSTATE in the unused state code 7 (10_state.md R17,
  42_receive_fsm.md R97, decision D32). The spec's own refusal. Safe. -/
  | badState
  /-- Raised by the byte stage for a key that no row of the table takes; 30_encoding.md R56 says every key has a row, so no
  byte gives it (log entry 15). Safe. -/
  | noTransitionRow
deriving DecidableEq, Repr

/-- The state at power-on, for parameters `p` (10_state.md R31, 70_reset_and_hazards.md R130): the reset values, no buffer
cell written, nothing presented. -/
def State.powerOn (p : Params) : State where
  params := p
  st := .idle
  chk := 0x00#8
  len := 0x00#8
  pos := 0x00#8
  crc := 0x00#8
  lastT := 0
  tmo := p.timeoutDefault
  buf := []
  inputs := []
  out := Output.clear

/-- The machine right after reset: power-on with the parameters of `Config.resetParams` (log entries 4 and 5). -/
def State.reset : State := State.powerOn Config.resetParams

end Sys2Proof.Machine
end

