-- ==== Sys2Proof/Machine/Operands.lean ====
section
/-! DEFINITION. The operand forms of the port operations (30_encoding.md R54, R57): the time operand, the buffer index, and
the zero extension of a byte result. A byte operand is taken as it is. -/

namespace Sys2Proof.Machine

/-- A time or timeout operand as the block takes it: the low TS_W bits of what is presented (30_encoding.md R57, R67: times
wrap modulo 2^TS_W; log entry 6). -/
def timeOperand (p : Params) (t : Nat) : Nat := t % 2 ^ p.tsW

/-- The index operand of READ_BUF as a cell number (20_memory.md R33). -/
def indexOperand (i : Byte) : Nat := i.toNat

/-- `zext_32` of a byte (00_scope.md R12, 30_encoding.md R64). -/
def zext32 (b : Byte) : Word32 := b.setWidth 32

end Sys2Proof.Machine
end

