-- ==== Sys2Proof/Machine/Flags.lean ====
section
/-! DEFINITION. Everything the block computes from its registers without writing any: the predicates of 10_state.md R23, the
STATUS word of R26, the checksum validator and the timeout test, and the encodings of the outputs (30_encoding.md R61 to
R64). The block has no condition flags (10_state.md R28). -/

namespace Sys2Proof.Machine

/-- The code of a parse state (10_state.md R17). -/
def stCode : RxState → BitVec 3
  | .idle => 0#3
  | .awaitStart => 1#3
  | .awaitChecksum => 2#3
  | .awaitLength => 3#3
  | .inData => 4#3
  | .inEscape => 5#3
  | .awaitEnd => 6#3
  | .unused7 => 7#3

/-- The parse state with a code (10_state.md R17). -/
def stOfCode (c : BitVec 3) : RxState :=
  if c = 0#3 then .idle
  else if c = 1#3 then .awaitStart
  else if c = 2#3 then .awaitChecksum
  else if c = 3#3 then .awaitLength
  else if c = 4#3 then .inData
  else if c = 5#3 then .inEscape
  else if c = 6#3 then .awaitEnd
  else .unused7

/-- `rx_enabled(s)` (10_state.md R23). -/
def rxEnabled (s : State) : Bool := s.st != .idle

/-- `in_progress(s)` (10_state.md R23). -/
def inProgress (s : State) : Bool :=
  match s.st with
  | .idle => false
  | .awaitStart => false
  | .awaitChecksum => true
  | .awaitLength => true
  | .inData => true
  | .inEscape => true
  | .awaitEnd => true
  | .unused7 => false

/-- The STATUS word `{chk, pos, len, 0b000, in_progress, rx_enabled, st}` (10_state.md R26, 43_port_operations.md R111). -/
def statusWord (s : State) : Word32 :=
  s.chk ++ s.pos ++ s.len ++ 0#3 ++ BitVec.ofBool (inProgress s) ++ BitVec.ofBool (rxEnabled s) ++ stCode s.st

/-- `crc_ok(s)` (40_checksum.md R71). -/
def crcOk (s : State) : Bool := s.crc == s.chk

/-- The elapsed time `(now - last_t) mod 2^TS_W` (43_port_operations.md R103). -/
def elapsed (p : Params) (now last : Nat) : Nat :=
  (((now : Int) - (last : Int)) % ((2 ^ p.tsW : Nat) : Int)).toNat

/-- The timeout test of 43_port_operations.md R103: a frame is in progress and the elapsed time is strictly more than `tmo`. -/
def timedOut (s : State) (now : Nat) : Bool :=
  inProgress s && decide (s.tmo < elapsed s.params now s.lastT)

/-- The code of an error kind (30_encoding.md R63). -/
def errCode : ErrKind → BitVec 3
  | .crc => 1#3
  | .frame => 2#3
  | .length => 3#3
  | .overflow => 4#3
  | .timeout => 5#3

/-- The signal `ev_cls` (30_encoding.md R62). -/
def evCls : Event → BitVec 2
  | .none => 0#2
  | .ready _ => 1#2
  | .error _ => 2#2

/-- The signal `ev_kind` (30_encoding.md R62, R63). -/
def evKind : Event → BitVec 3
  | .none => 0#3
  | .ready _ => 0#3
  | .error k => errCode k

/-- The signal `ev_len` (30_encoding.md R62). -/
def evLen : Event → Byte
  | .none => 0#8
  | .ready l => l
  | .error _ => 0#8

end Sys2Proof.Machine
end

