-- ==== Sys2Proof/Machine/Ops.lean ====
section
/-! DEFINITION. The named operations over the buffer, the registers and the outputs that the meanings share: buffer access
(20_memory.md R34, R35), the output record (00_scope.md R14), error entry and the frame reset (60_exceptions.md R119), the
append (42_receive_fsm.md R82) and the timeout check (43_port_operations.md R103). -/

namespace Sys2Proof.Machine

/-! ## The receive buffer -/

/-- The byte listed for cell `a`, if the cell has been written since power-on. -/
def Memory.lookup : Memory → Nat → Option Byte
  | [], _ => none
  | (k, v) :: m, a => if k = a then some v else Memory.lookup m a

/-- Write byte `v` to cell `a`, keeping the indices strictly rising. -/
def Memory.store : Memory → Nat → Byte → Memory
  | [], a, v => [(a, v)]
  | (k, w) :: m, a, v =>
    if a < k then (a, v) :: (k, w) :: m
    else if a = k then (a, v) :: m
    else (k, w) :: Memory.store m a v

/-- The canonical form: indices strictly rising, each the index of a cell (20_memory.md R33). An entry is never equal to
what an unlisted cell reads as, since an unlisted cell has no listed byte. -/
abbrev Memory.wf (m : Memory) : Prop :=
  m.Pairwise (fun x y => x.1 < y.1) ∧ ∀ c ∈ m, c.1 < Config.bufCap

/-- The byte a cell holds: the last byte written to it, or its power-on byte, which is a free value (10_state.md R31,
20_memory.md R41; log entry 7). -/
def Memory.cell (m : Memory) (a : Nat) : Byte := (m.lookup a).getD (Config.powerOnByte a)

/-- What READ_BUF reads at index `i`: the cell's byte for `i` < 251, and 0 for 251 to 255 (20_memory.md R35). -/
def Memory.read (m : Memory) (i : Nat) : Byte := if i < Config.bufCap then m.cell i else 0x00#8

/-- The payload bytes stored so far in the current frame, `[buf[0], ..., buf[pos-1]]` (10_state.md R29). -/
def State.stored (s : State) : List Byte := (List.range s.pos.toNat).map s.buf.cell

/-! ## The output record -/

/-- Every operation starts from `out = {acc = false, ev = NONE, rdata = 0}` (00_scope.md R14). -/
def State.clearOut (s : State) : State := { s with out := Output.clear }

/-- Set the output `acc` (30_encoding.md R61). -/
def State.setAcc (s : State) (a : Bool) : State := { s with out := { s.out with acc := a } }

/-- Set the output `ev` (30_encoding.md R62). -/
def State.setEv (s : State) (e : Event) : State := { s with out := { s.out with ev := e } }

/-- Set the output `rdata` (30_encoding.md R64). -/
def State.setRdata (s : State) (v : Word32) : State := { s with out := { s.out with rdata := v } }

/-! ## Error entry and the frame reset -/

/-- `reset_frame()` (60_exceptions.md R119): `chk`, `len`, `last_t`, `tmo` and `buf` are not written. It is also how the
block returns to scanning: there is no return-from-error operation (R123). -/
def State.resetFrame (s : State) : State := { s with st := .awaitStart, pos := 0x00#8, crc := 0x00#8 }

/-- `raise FrameError(kind)` (60_exceptions.md R119): taking an exception, the one operation of every error. -/
def State.raiseFrameError (s : State) (k : ErrKind) : State := (s.setEv (.error k)).resetFrame

/-- `emit Ready(L)` and the READY transition's `reset_frame()` (60_exceptions.md R119, 42_receive_fsm.md R95). -/
def State.deliverFrame (s : State) (l : Byte) : State := (s.setEv (.ready l)).resetFrame

/-! ## The append -/

/-- The state after `append(b)` (42_receive_fsm.md R82), where the write position names a cell: the byte is stored, `crc`
and `pos` follow, and the completion test uses the incremented `pos`. -/
def State.appended (s : State) (b : Byte) : State :=
  { s with
    buf := s.buf.store s.pos.toNat b
    crc := crc8Step s.crc b
    pos := s.pos + 1#8
    st := if s.pos + 1#8 = s.len then .awaitEnd else .inData }

/-- `append(b)` (42_receive_fsm.md R82). Its precondition `pos < len <= 251` holds in every state a run reaches; in others
a write position of 251 or more names no cell (20_memory.md R33), and the model stops (log entry 9). -/
def append (b : Byte) (s : State) : Host.Outcome State Fault Refusal :=
  if s.pos.toNat < Config.bufCap then .next (s.appended b) else .fault (.noSuchCell s.pos.toNat)

/-! ## The timeout check -/

/-- `tmo_check(now)` (43_port_operations.md R103); `now` is a TS_W-bit value. -/
def State.tmoCheck (s : State) (now : Nat) : State := if timedOut s now then s.raiseFrameError .timeout else s

/-- The state in which a FEED's byte stage runs, for a byte that is taken at `now` (43_port_operations.md R104): `acc` set,
the timeout checked, then `last_t` written. -/
def State.takeByte (s : State) (now : Nat) : State :=
  { ((s.clearOut.setAcc true).tmoCheck now) with lastT := now }

/-! ## The byte stage's key -/

/-- The key `{s.st, b}` (42_receive_fsm.md R81). -/
def rxKey (s : State) (b : Byte) : Key := mkKey (stCode s.st) b

/-- A port operation is refused in the unused state code 7, whatever the operation (10_state.md R17,
43_port_operations.md R102). -/
def inKnownState (s : State) (s' : State) : Host.Outcome State Fault Refusal :=
  match s.st with
  | .unused7 => .refused .badState
  | .idle => .next s'
  | .awaitStart => .next s'
  | .awaitChecksum => .next s'
  | .awaitLength => .next s'
  | .inData => .next s'
  | .inEscape => .next s'
  | .awaitEnd => .next s'

end Sys2Proof.Machine
end

