-- ==== Sys2Proof/Machine/ReceiveFsm.lean ====
section
/-! DEFINITION. The byte stage of FEED: one meaning per row of the key table (42_receive_fsm.md R83 to R97), and the dispatch
`rx_byte` (R81). A row's meaning is the row's pseudocode, performed on the state it is given; the byte stage performs a row
only in the states whose key selects it (log entry 8). -/

namespace Sys2Proof.Machine

/-- RX.IDLE (R83): the byte is not taken; `acc` = 0, nothing is written. -/
def execRxIdle (_b : Byte) (s : State) : Host.Outcome State Fault Refusal := .next (s.setAcc false)

/-- RX.START (R84): `st <- AWAIT_CHECKSUM`. -/
def execRxStart (s : State) : Host.Outcome State Fault Refusal := .next { s with st := .awaitChecksum }

/-- RX.SKIP (R85): the byte is discarded. -/
def execRxSkip (_b : Byte) (s : State) : Host.Outcome State Fault Refusal := .next s

/-- RX.CHK (R86): `chk <- b; st <- AWAIT_LENGTH`. -/
def execRxChk (b : Byte) (s : State) : Host.Outcome State Fault Refusal :=
  .next { s with chk := b, st := .awaitLength }

/-- RX.LEN0 (R87): `len <- 0x00; raise FrameError(LENGTH)`. -/
def execRxLen0 (s : State) : Host.Outcome State Fault Refusal :=
  .next (State.raiseFrameError { s with len := 0x00#8 } .length)

/-- RX.LENOVF (R88): `len <- b; raise FrameError(OVERFLOW)`. -/
def execRxLenovf (b : Byte) (s : State) : Host.Outcome State Fault Refusal :=
  .next (State.raiseFrameError { s with len := b } .overflow)

/-- RX.LEN (R89): `len <- b; pos <- 0; crc <- 0x00; st <- IN_DATA`. -/
def execRxLen (b : Byte) (s : State) : Host.Outcome State Fault Refusal :=
  .next { s with len := b, pos := 0x00#8, crc := 0x00#8, st := .inData }

/-- RX.ESC (R90): `st <- IN_ESCAPE`. -/
def execRxEsc (s : State) : Host.Outcome State Fault Refusal := .next { s with st := .inEscape }

/-- RX.DEND (R91): an unescaped END_MARK in the payload region, `raise FrameError(LENGTH)`. -/
def execRxDend (s : State) : Host.Outcome State Fault Refusal := .next (s.raiseFrameError .length)

/-- RX.DSTART (R92): an unescaped START_MARK in the payload region, `raise FrameError(LENGTH)`; the byte is consumed and
starts no attempt. -/
def execRxDstart (s : State) : Host.Outcome State Fault Refusal := .next (s.raiseFrameError .length)

/-- RX.DATA (R93): `append(b)`. -/
def execRxData (b : Byte) (s : State) : Host.Outcome State Fault Refusal := append b s

/-- RX.EDATA (R94): `append(b)`, whatever the byte. -/
def execRxEdata (b : Byte) (s : State) : Host.Outcome State Fault Refusal := append b s

/-- RX.END (R95): END_MARK; the checksum is compared, and the frame is delivered or fails with CRC. -/
def execRxEnd (s : State) : Host.Outcome State Fault Refusal :=
  if crcOk s then .next (s.deliverFrame s.len) else .next (s.raiseFrameError .crc)

/-- RX.NOEND (R96): a byte other than END_MARK, `raise FrameError(FRAME)`; the checksum is not compared. -/
def execRxNoend (_b : Byte) (s : State) : Host.Outcome State Fault Refusal := .next (s.raiseFrameError .frame)

/-- RX.BADSTATE (R97): refused (`BadState`). -/
def execRxBadstate (_b : Byte) (_s : State) : Host.Outcome State Fault Refusal := .refused .badState

/-- Perform the row the key decoder gave. It never gives a port operation (30_encoding.md R56; log entry 15). -/
def performRow (i : Instr) (s : State) : Host.Outcome State Fault Refusal :=
  match i with
  | .rxIdle b => execRxIdle b s
  | .rxStart => execRxStart s
  | .rxSkip b => execRxSkip b s
  | .rxChk b => execRxChk b s
  | .rxLen0 => execRxLen0 s
  | .rxLenovf b => execRxLenovf b s
  | .rxLen b => execRxLen b s
  | .rxEsc => execRxEsc s
  | .rxDend => execRxDend s
  | .rxDstart => execRxDstart s
  | .rxData b => execRxData b s
  | .rxEdata b => execRxEdata b s
  | .rxEnd => execRxEnd s
  | .rxNoend b => execRxNoend b s
  | .rxBadstate b => execRxBadstate b s
  | .nop => .refused .noTransitionRow
  | .feed _ _ => .refused .noTransitionRow
  | .tick _ => .refused .noTransitionRow
  | .startRx => .refused .noTransitionRow
  | .stopRx => .refused .noTransitionRow
  | .setTimeout _ => .refused .noTransitionRow
  | .readBuf _ => .refused .noTransitionRow
  | .readStatus => .refused .noTransitionRow
  | .reset => .refused .noTransitionRow

/-- `rx_byte(s, b)` (R81): form the key, find the first matching row, perform that row's rule. -/
def rxByte (s : State) (b : Byte) : Host.Outcome State Fault Refusal :=
  match decodeKey (rxKey s b) with
  | .ok i => performRow i s
  | .error _ => .refused .noTransitionRow

end Sys2Proof.Machine
end

