-- ==== Sys2Proof/Machine/PortOps.lean ====
section
/-! DEFINITION. The port operations (43_port_operations.md R104 to R112) and the reset input (70_reset_and_hazards.md R130).
Every operation starts from a clear output record (00_scope.md R14), and every one but reset is refused in the unused state
code 7 (43_port_operations.md R102; log entry 10). -/

namespace Sys2Proof.Machine

/-- NOP (R112). -/
def execNop (s : State) : Host.Outcome State Fault Refusal := inKnownState s s.clearOut

/-- FEED (R104): in IDLE the byte is not taken (42_receive_fsm.md R83); otherwise the timeout is checked, `last_t` is
written, and the byte stage runs on the state that leaves. -/
def execFeed (b : Byte) (now : Nat) (s : State) : Host.Outcome State Fault Refusal :=
  match s.st with
  | .unused7 => .refused .badState
  | .idle => execRxIdle b s.clearOut
  | .awaitStart => rxByte (s.takeByte (timeOperand s.params now)) b
  | .awaitChecksum => rxByte (s.takeByte (timeOperand s.params now)) b
  | .awaitLength => rxByte (s.takeByte (timeOperand s.params now)) b
  | .inData => rxByte (s.takeByte (timeOperand s.params now)) b
  | .inEscape => rxByte (s.takeByte (timeOperand s.params now)) b
  | .awaitEnd => rxByte (s.takeByte (timeOperand s.params now)) b

/-- TICK (R106): the timeout check; `last_t` is not written. -/
def execTick (now : Nat) (s : State) : Host.Outcome State Fault Refusal :=
  inKnownState s (s.clearOut.tmoCheck (timeOperand s.params now))

/-- The state after START_RX from IDLE (R107). -/
def State.started (s : State) : State := { s with st := .awaitStart, pos := 0x00#8, crc := 0x00#8 }

/-- START_RX (R107): no effect unless `st` is IDLE. -/
def execStartRx (s : State) : Host.Outcome State Fault Refusal :=
  inKnownState s (if s.st = .idle then s.clearOut.started else s.clearOut)

/-- STOP_RX (R108): a frame in progress is discarded without notice. -/
def execStopRx (s : State) : Host.Outcome State Fault Refusal :=
  inKnownState s { s.clearOut with st := .idle, pos := 0x00#8, crc := 0x00#8 }

/-- SET_TIMEOUT (R109): `tmo <- v`. -/
def execSetTimeout (v : Nat) (s : State) : Host.Outcome State Fault Refusal :=
  inKnownState s { s.clearOut with tmo := timeOperand s.params v }

/-- READ_BUF (R110). -/
def execReadBuf (i : Byte) (s : State) : Host.Outcome State Fault Refusal :=
  inKnownState s (s.clearOut.setRdata (zext32 (s.buf.read (indexOperand i))))

/-- READ_STATUS (R111). -/
def execReadStatus (s : State) : Host.Outcome State Fault Refusal :=
  inKnownState s (s.clearOut.setRdata (statusWord s))

/-- RESET (70_reset_and_hazards.md R130): the registers at their reset values, the buffer not written, no event. It takes
effect in every state (R131; log entry 10). -/
def execReset (s : State) : Host.Outcome State Fault Refusal :=
  .next { s.clearOut with
    st := .idle, chk := 0x00#8, len := 0x00#8, pos := 0x00#8, crc := 0x00#8, lastT := 0, tmo := s.params.timeoutDefault }

end Sys2Proof.Machine
end

