-- ==== Sys2Proof/Machine/Dispatch.lean ====
section
/-! DEFINITION. One arm per row of the opcode table, each one direct call of the row's meaning. -/

namespace Sys2Proof.Machine

def exec (i : Instr) (s : State) : Host.Outcome State Fault Refusal :=
  match i with
  -- the byte stage (42_receive_fsm.md)
  | .rxIdle b => Sys2Proof.Machine.execRxIdle b s
  | .rxStart => Sys2Proof.Machine.execRxStart s
  | .rxSkip b => Sys2Proof.Machine.execRxSkip b s
  | .rxChk b => Sys2Proof.Machine.execRxChk b s
  | .rxLen0 => Sys2Proof.Machine.execRxLen0 s
  | .rxLenovf b => Sys2Proof.Machine.execRxLenovf b s
  | .rxLen b => Sys2Proof.Machine.execRxLen b s
  | .rxEsc => Sys2Proof.Machine.execRxEsc s
  | .rxDend => Sys2Proof.Machine.execRxDend s
  | .rxDstart => Sys2Proof.Machine.execRxDstart s
  | .rxData b => Sys2Proof.Machine.execRxData b s
  | .rxEdata b => Sys2Proof.Machine.execRxEdata b s
  | .rxEnd => Sys2Proof.Machine.execRxEnd s
  | .rxNoend b => Sys2Proof.Machine.execRxNoend b s
  | .rxBadstate b => Sys2Proof.Machine.execRxBadstate b s
  -- the port operations (43_port_operations.md)
  | .nop => Sys2Proof.Machine.execNop s
  | .feed b now => Sys2Proof.Machine.execFeed b now s
  | .tick now => Sys2Proof.Machine.execTick now s
  | .startRx => Sys2Proof.Machine.execStartRx s
  | .stopRx => Sys2Proof.Machine.execStopRx s
  | .setTimeout v => Sys2Proof.Machine.execSetTimeout v s
  | .readBuf idx => Sys2Proof.Machine.execReadBuf idx s
  | .readStatus => Sys2Proof.Machine.execReadStatus s
  -- the reset input (70_reset_and_hazards.md)
  | .reset => Sys2Proof.Machine.execReset s

end Sys2Proof.Machine
end

