-- ==== Sys2Proof/Machine/Step.lean ====
section
/-! DEFINITION. The step: the block performs exactly one operation, the one the host presents (00_scope.md R5, R14;
43_port_operations.md R102). -/

namespace Sys2Proof.Machine

/-- One step: take the input the host presents, decode it and perform it. With nothing presented the step is a NOP, "a step
in which the host has nothing to present" (43_port_operations.md R112; log entry 2). -/
def step (s : State) : Host.Outcome State Fault Refusal :=
  match s.inputs with
  | [] => exec .nop s
  | x :: xs => exec (decodeInput x) { s with inputs := xs }

/-- `s` with a word of the opcode table where the next step takes its operation from (log entry 12). An operation or the
reset input is presented first. A key `{st, b}` is a row of the byte stage: `st` is set to the key's state and a FEED of the
key's byte is presented, at the time of the last taken byte, so that no timeout comes before it. -/
def State.withFetchWord (s : State) (nbits w : Nat) : State :=
  match tableWord nbits w with
  | .ok (.port x) => { s with inputs := x :: s.inputs }
  | .ok (.key k) =>
    { s with st := stOfCode (keyState k), inputs := mkPort 1#3 (keyByte k) s.lastT :: s.inputs }
  | .error _ => s

end Sys2Proof.Machine
end

