-- ==== Sys2Proof/Machine/RefEncoder.lean ====
section
/-! DEFINITION. The reference encoder (41_encoder_reference.md R75 to R79): a pure function with no port and no state, which
fixes the wire format the receiver accepts; and the segments of 42_receive_fsm.md R98, of which its frames are some. -/

namespace Sys2Proof.Machine

/-- The wire bytes of one payload byte: ESC first if the byte is reserved, then the byte itself (R75, 30_encoding.md R52). -/
def escapeByte (b : Byte) : List Byte := if Config.isReserved b then [Config.esc, b] else [b]

/-- The wire bytes of the payload region (R75). -/
def escapePayload (q : List Byte) : List Byte := q.flatMap escapeByte

/-- A frame from its fields: START_MARK, CHECKSUM, LENGTH, the payload region, END_MARK (30_encoding.md R48). -/
def frameBytes (chk len : Byte) (region : List Byte) : List Byte :=
  [Config.startMark, chk, len] ++ region ++ [Config.endMark]

/-- The payload as the encoder cuts it: its first 251 bytes (R77). -/
def cutPayload (p : List Byte) : List Byte := p.take Config.maxPayload

/-- `ENCODE(p)` (R75, R76, R77). -/
def encodeFrame (p : List Byte) : List Byte :=
  if p.isEmpty then []
  else frameBytes (crc8 (cutPayload p)) (BitVec.ofNat 8 (cutPayload p).length) (escapePayload (cutPayload p))

/-- One unit of a payload region the receiver accepts (42_receive_fsm.md R98): a single byte, or ESC and any byte. -/
inductive WireUnit where
  | plain (x : Byte)
  | escaped (y : Byte)
deriving DecidableEq, Repr

/-- A single byte is no reserved value; after ESC any byte may stand (R98). -/
def WireUnit.valid : WireUnit → Bool
  | .plain x => !Config.isReserved x
  | .escaped _ => true

/-- The wire bytes of a unit (R98). -/
def WireUnit.bytes : WireUnit → List Byte
  | .plain x => [x]
  | .escaped y => [Config.esc, y]

/-- The payload byte a unit decodes to (R98). -/
def WireUnit.payload : WireUnit → Byte
  | .plain x => x
  | .escaped y => y

/-- The segment `[0xAA, c, L, D..., 0x55]` of R98 with CHECKSUM `c` and the units `us`, L being their number. -/
def segment (c : Byte) (us : List WireUnit) : List Byte :=
  frameBytes c (BitVec.ofNat 8 us.length) (us.flatMap WireUnit.bytes)

end Sys2Proof.Machine
end

