-- ==== Sys2Proof/Machine/Stimulus.lean ====
section
/-! DEFINITION. The notation of 30_encoding.md R66 and the pseudo-operations of R67, as the inputs the host presents. -/

namespace Sys2Proof.Machine

/-- `nop` (R66). -/
def opNop : PortInput := mkPort 0#3 0#8 0

/-- `feed B @T` (R66). -/
def opFeed (b : Byte) (t : Nat) : PortInput := mkPort 1#3 b t

/-- `tick @T` (R66). -/
def opTick (t : Nat) : PortInput := mkPort 2#3 0#8 t

/-- `start` (R66). -/
def opStart : PortInput := mkPort 3#3 0#8 0

/-- `stop` (R66). -/
def opStop : PortInput := mkPort 4#3 0#8 0

/-- `settmo V` (R66). -/
def opSetTimeout (v : Nat) : PortInput := mkPort 5#3 0#8 v

/-- `rdbuf I` (R66). -/
def opReadBuf (i : Byte) : PortInput := mkPort 6#3 i 0

/-- `rdstat` (R66). -/
def opReadStatus : PortInput := mkPort 7#3 0#8 0

/-- `reset`: the reset input asserted (R66). -/
def opReset : PortInput := rstPort

/-- One FEED per byte, each with its own time. -/
def feedsAt (bs : List Byte) (ts : List Nat) : List PortInput := List.zipWith opFeed bs ts

/-- `bytes b0, ..., bn @T +D` (R67). -/
def feedsFrom (t d : Nat) : List Byte → List PortInput
  | [] => []
  | b :: bs => opFeed b t :: feedsFrom (t + d) d bs

/-- `frame p0, ..., pn @T +D` (R67). -/
def frameFrom (t d : Nat) (p : List Byte) : List PortInput := feedsFrom t d (encodeFrame p)

/-- `poll @T : b0, ..., bn` (R67, 43_port_operations.md R113): the timeout check comes before the bytes. -/
def poll (t : Nat) (bs : List Byte) : List PortInput := opTick t :: feedsFrom t 0 bs

end Sys2Proof.Machine
end

