-- ==== Sys2Proof/Safety.lean ====
section
/-! DEFINITION. What counts as a good state (the invariants of 10_state.md R29 and R30) and what a run of the block is: the
host presents a list of operations, one per step (00_scope.md R6, 20_memory.md R41). -/

namespace Sys2Proof.Machine

/-- The payload region and the end of a frame: `st` is IN_DATA, IN_ESCAPE or AWAIT_END (10_state.md R29). -/
def inFrame (s : State) : Bool :=
  match s.st with
  | .idle => false
  | .awaitStart => false
  | .awaitChecksum => false
  | .awaitLength => false
  | .inData => true
  | .inEscape => true
  | .awaitEnd => true
  | .unused7 => false

/-- The invariant of every state reachable from reset. -/
structure Inv (s : State) : Prop where
  /-- The parameters are ones the spec allows (00_scope.md R10, R11). -/
  legal : s.params.Legal
  /-- `last_t` is a TS_W-bit value (10_state.md R24). -/
  lastT_width : s.lastT < 2 ^ s.params.tsW
  /-- `tmo` is a TS_W-bit value (10_state.md R25). -/
  tmo_width : s.tmo < 2 ^ s.params.tsW
  /-- The buffer is in canonical form and lists only the 251 cells (20_memory.md R33). -/
  buf_wf : Memory.wf s.buf
  /-- The unused state code is not reached (10_state.md R17). -/
  known : s.st ≠ .unused7
  /-- Outside the payload region `pos` and `crc` are 0 (10_state.md R30). -/
  scanning : inFrame s = false → s.pos = 0x00#8 ∧ s.crc = 0x00#8
  /-- The accepted length is in range (10_state.md R29). -/
  length_range : inFrame s = true → 1 ≤ s.len.toNat ∧ s.len.toNat ≤ Config.bufCap
  /-- While payload bytes are missing, `pos` < `len` (10_state.md R29). -/
  room : s.st = .inData ∨ s.st = .inEscape → s.pos.toNat < s.len.toNat
  /-- At the end of the payload `pos` = `len` (10_state.md R29). -/
  complete : s.st = .awaitEnd → s.pos = s.len
  /-- `crc` is the CRC-8 of the bytes stored so far (10_state.md R29). -/
  running : inFrame s = true → s.crc = crc8 s.stored

/-- `s` with exactly the operation `x` presented. -/
def State.present (s : State) (x : PortInput) : State := { s with inputs := [x] }

/-- One step of a run: the state before it, the input presented, the state after it (whose `out` is the step's output). -/
structure Transition where
  before : State
  input : PortInput
  after : State
deriving DecidableEq, Repr

/-- The steps of the run in which the host presents `xs`, one per step (none where a step stops). -/
def runTrace : State → List PortInput → Option (List Transition)
  | _, [] => some []
  | s, x :: xs =>
    match step (s.present x) with
    | .next t =>
      match runTrace t xs with
      | some tr => some ({ before := s, input := x, after := t } :: tr)
      | none => none
    | .fault _ => none
    | .refused _ => none

/-- The state a run from `s` ends in. -/
def finalState (s : State) : List Transition → State
  | [] => s
  | tr :: trs => finalState tr.after trs

/-- The events of a run, one entry per step. -/
def events (tr : List Transition) : List Event := tr.map fun x => x.after.out.ev

/-- The step takes START_MARK in AWAIT_START: the start of a frame attempt (60_exceptions.md R127). A byte taken after a
timeout is decoded from AWAIT_START (43_port_operations.md R104). -/
def Transition.startsAttempt (x : Transition) : Bool :=
  !x.input.rst && wordOp x.input.w == 1#3 && wordArg x.input.w == Config.startMark &&
    (x.before.st == .awaitStart || timedOut x.before (timeOperand x.before.params x.input.t))

/-- The step appends a payload byte (20_memory.md R34): a FEED with no timeout before its byte, in IN_DATA of a byte that is
not reserved (42_receive_fsm.md R93) or in IN_ESCAPE of any byte (R94). -/
def Transition.appends (x : Transition) : Bool :=
  !x.input.rst && wordOp x.input.w == 1#3 && !timedOut x.before (timeOperand x.before.params x.input.t) &&
    (x.before.st == .inEscape || (x.before.st == .inData && !Config.isReserved (wordArg x.input.w)))

/-- The step resolves a frame attempt with an event (60_exceptions.md R127). -/
def Transition.resolvesAttempt (x : Transition) : Bool := x.after.out.ev != .none

/-- The step aborts a frame in progress by STOP_RX or reset (60_exceptions.md R125). -/
def Transition.abortsAttempt (x : Transition) : Bool :=
  inProgress x.before && (decodeInput x.input == .stopRx || decodeInput x.input == .reset)

/-- The times of successive taken bytes are close enough for no timeout: each exceeds the one before by at most `tmo`,
modulo 2^TS_W (41_encoder_reference.md R80). -/
def GapsWithin (p : Params) (tmo : Nat) (ts : List Nat) : Prop :=
  ∀ k, k + 1 < ts.length → elapsed p (ts.getD (k + 1) 0) (ts.getD k 0) ≤ tmo

end Sys2Proof.Machine
end

