-- ==== Sys2Proof/Certificates/Slice0/Obligations.lean ====
section
/-! DEFINITION. The statements for the provers. A next state written as a record update `{ s with … }` says what every named
field becomes and that every other field, all of the buffer among them, is unchanged. -/

open Sys2Proof Sys2Proof.Machine

/-! ## Encoding -/

/-- Decoding the encoding of a well-formed instruction gives it back, with every operand at every value (30_encoding.md R56,
R57, R58). -/
def Obligations.DecodeEncodeIsIdentity : Prop :=
  ∀ i : Instr, i.wellFormed = true → decode (encode i) = .ok i

/-- The key table is total and each key belongs to exactly one row: the row's instruction is well formed, encodes back to
the key, and is the only well-formed instruction that does (30_encoding.md R56). -/
def Obligations.EveryKeyIsExactlyOneRow : Prop :=
  ∀ k : Key, ∃ i : Instr,
    decodeKey k = .ok i ∧ i.isRxRow = true ∧ i.wellFormed = true ∧ encode i = .key k ∧
      ∀ j : Instr, j.wellFormed = true → encode j = .key k → j = i

/-- The operation codes: `op` = `w[2:0]`, `arg` = `w[10:3]`, with the operands each code uses and no other; reset overrides
(30_encoding.md R57, R58, R59). -/
def Obligations.OperationCodesSelectTheOperation : Prop :=
  ∀ (arg : Byte) (t : Nat),
    decodeInput { rst := false, w := arg ++ 0#3, t := t } = .nop ∧
    decodeInput { rst := false, w := arg ++ 1#3, t := t } = .feed arg t ∧
    decodeInput { rst := false, w := arg ++ 2#3, t := t } = .tick t ∧
    decodeInput { rst := false, w := arg ++ 3#3, t := t } = .startRx ∧
    decodeInput { rst := false, w := arg ++ 4#3, t := t } = .stopRx ∧
    decodeInput { rst := false, w := arg ++ 5#3, t := t } = .setTimeout t ∧
    decodeInput { rst := false, w := arg ++ 6#3, t := t } = .readBuf arg ∧
    decodeInput { rst := false, w := arg ++ 7#3, t := t } = .readStatus ∧
    ∀ w : OpWord, decodeInput { rst := true, w := w, t := t } = .reset

/-- Words written out from the tables of 30_encoding.md R56, R58 and R66 decode to what they stand for. -/
def Obligations.SampleWordsDecode : Prop :=
  decodeKey 0b00110101010#11 = .ok .rxStart ∧
  decodeKey 0b01100000000#11 = .ok .rxLen0 ∧
  decodeKey 0b01111111011#11 = .ok (.rxLen 251#8) ∧
  decodeKey 0b01111111100#11 = .ok (.rxLenovf 252#8) ∧
  decodeKey 0b10101010101#11 = .ok (.rxEdata 0x55#8) ∧
  decodeInput { rst := false, w := 0b10101010001#11, t := 9 } = .feed 0xAA#8 9 ∧
  decodeInput { rst := false, w := 0b00000010110#11, t := 0 } = .readBuf 2#8 ∧
  decodeInput { rst := false, w := 0b10101011010#11, t := 151 } = .tick 151

/-- The notation of 30_encoding.md R66: the words `w` and operands `t` of its table. -/
def Obligations.NotationGivesTheWords : Prop :=
  (∀ (b : Byte) (t : Nat),
    opFeed b t = { rst := false, w := ((b.setWidth 11) <<< 3) ||| 1#11, t := t } ∧
    opReadBuf b = { rst := false, w := ((b.setWidth 11) <<< 3) ||| 6#11, t := 0 } ∧
    opTick t = { rst := false, w := 0x002#11, t := t } ∧
    opSetTimeout t = { rst := false, w := 0x005#11, t := t }) ∧
  opNop = { rst := false, w := 0x000#11, t := 0 } ∧
  opStart = { rst := false, w := 0x003#11, t := 0 } ∧
  opStop = { rst := false, w := 0x004#11, t := 0 } ∧
  opReadStatus = { rst := false, w := 0x007#11, t := 0 } ∧
  opReset.rst = true

/-- The pseudo-operations of 30_encoding.md R67: the k-th byte is fed at T + k·D, a frame is the bytes of ENCODE, and a poll
is a TICK and then its bytes, all at one time. -/
def Obligations.PseudoOperationsExpand : Prop :=
  ∀ (t d : Nat) (bs : List Byte),
    (feedsFrom t d bs).length = bs.length ∧
    (∀ k, (feedsFrom t d bs)[k]? = (bs[k]?).map fun b => opFeed b (t + k * d)) ∧
    frameFrom t d bs = feedsFrom t d (encodeFrame bs) ∧
    poll t bs = opTick t :: bs.map fun b => opFeed b t

/-- The output signals `ev_cls`, `ev_kind` and `ev_len` of every event (30_encoding.md R62, R63). -/
def Obligations.EventSignalsAreThoseOfTheTables : Prop :=
  (evCls .none = 0#2 ∧ evKind .none = 0#3 ∧ evLen .none = 0#8) ∧
  (∀ l : Byte, evCls (.ready l) = 1#2 ∧ evKind (.ready l) = 0#3 ∧ evLen (.ready l) = l) ∧
  (∀ k : ErrKind, evCls (.error k) = 2#2 ∧ evLen (.error k) = 0#8) ∧
  evKind (.error .crc) = 1#3 ∧ evKind (.error .frame) = 2#3 ∧ evKind (.error .length) = 3#3 ∧
  evKind (.error .overflow) = 4#3 ∧ evKind (.error .timeout) = 5#3 ∧
  (∀ e : Event, evCls e ≠ 3#2 ∧ evKind e ≠ 6#3 ∧ evKind e ≠ 7#3)

/-! ## State, STATUS and reset -/

/-- The predicates `rx_enabled` and `in_progress` (10_state.md R23). -/
def Obligations.DerivedPredicates : Prop :=
  ∀ s : State,
    (rxEnabled s = true ↔ s.st ≠ .idle) ∧
    (inProgress s = true ↔
      s.st = .awaitChecksum ∨ s.st = .awaitLength ∨ s.st = .inData ∨ s.st = .inEscape ∨ s.st = .awaitEnd)

/-- The fields of the STATUS word, the state codes among them (10_state.md R26 with the codes of R17). -/
def Obligations.StatusWordFields : Prop :=
  ∀ s : State,
    (statusWord s).extractLsb' 0 3 =
      (match s.st with
        | .idle => 0#3 | .awaitStart => 1#3 | .awaitChecksum => 2#3 | .awaitLength => 3#3
        | .inData => 4#3 | .inEscape => 5#3 | .awaitEnd => 6#3 | .unused7 => 7#3) ∧
    (statusWord s).getLsbD 3 = rxEnabled s ∧
    (statusWord s).getLsbD 4 = inProgress s ∧
    (statusWord s).extractLsb' 5 3 = 0#3 ∧
    (statusWord s).extractLsb' 8 8 = s.len ∧
    (statusWord s).extractLsb' 16 8 = s.pos ∧
    (statusWord s).extractLsb' 24 8 = s.chk

/-- The state at power-on, for any parameters: the reset table of 10_state.md R31. Each buffer cell holds its power-on byte,
of which nothing is known. -/
def Obligations.PowerOnState : Prop :=
  ∀ p : Params,
    (State.powerOn p).params = p ∧ (State.powerOn p).st = .idle ∧ (State.powerOn p).chk = 0x00#8 ∧
    (State.powerOn p).len = 0x00#8 ∧ (State.powerOn p).pos = 0x00#8 ∧ (State.powerOn p).crc = 0x00#8 ∧
    (State.powerOn p).lastT = 0 ∧ (State.powerOn p).tmo = p.timeoutDefault ∧
    (∀ a, a < 251 → (State.powerOn p).buf.read a = Config.powerOnByte a) ∧
    (∃ p0 : Params, State.reset = State.powerOn p0)

/-- RESET (70_reset_and_hazards.md R130): every register at its reset value, `buf` not written, the outputs clear, from
every state; a step with `rst` asserted is that, whatever the operation word and `t`; and the power-on state is a state after
a reset. -/
def Obligations.ResetSetsTheRegisters : Prop :=
  ∀ s : State,
    exec .reset s = .next { s with
      st := .idle, chk := 0x00#8, len := 0x00#8, pos := 0x00#8, crc := 0x00#8, lastT := 0
      tmo := s.params.timeoutDefault
      out := { acc := false, ev := .none, rdata := 0#32 } } ∧
    (∀ (w : OpWord) (t : Nat) (xs : List PortInput), s.inputs = { rst := true, w := w, t := t } :: xs →
      step s = exec .reset { s with inputs := xs }) ∧
    ∀ p : Params, exec .reset (State.powerOn p) = .next (State.powerOn p)

/-- Reset in any state discards the frame with no event, two resets are as one, and a timeout set earlier is lost
(70_reset_and_hazards.md R131). -/
def Obligations.ResetIsIdempotent : Prop :=
  ∀ s : State, ∃ t : State,
    exec .reset s = .next t ∧ exec .reset t = .next t ∧ inProgress t = false ∧ t.out.ev = .none ∧
      t.tmo = s.params.timeoutDefault ∧ t.st = .idle

/-! ## The step -/

/-- A step is exactly the instruction the presented input decodes to, on the state without that input; with nothing
presented it is NOP (43_port_operations.md R102, R112; the queue of presented inputs is the model's, log entries 1 and 2). -/
def Obligations.StepPerformsThePresentedInput : Prop :=
  (∀ (s : State) (x : PortInput) (xs : List PortInput),
    s.inputs = x :: xs → step s = exec (decodeInput x) { s with inputs := xs }) ∧
  ∀ s : State, s.inputs = [] → step s = exec .nop s

/-- FEED (43_port_operations.md R104): in IDLE the byte is not taken; otherwise a stalled frame times out and the byte is
decoded from AWAIT_START; otherwise the row the key `{st, b}` selects is performed with `acc` set and `last_t` written. A time wider than TS_W bits is
taken modulo 2^TS_W (log entry 6). -/
def Obligations.FeedPerformsTheSelectedRow : Prop :=
  ∀ (s : State) (b : Byte) (now : Nat),
    (s.st = .idle →
      exec (.feed b now) s = .next { s with out := { acc := false, ev := .none, rdata := 0#32 } }) ∧
    (inProgress s = true → s.tmo < elapsed s.params (now % 2 ^ s.params.tsW) s.lastT →
      exec (.feed b now) s = .next { s with
        st := if b = 0xAA#8 then .awaitChecksum else .awaitStart
        pos := 0x00#8, crc := 0x00#8, lastT := now % 2 ^ s.params.tsW
        out := { acc := true, ev := .error .timeout, rdata := 0#32 } }) ∧
    (s.st = .awaitStart ∨
        (inProgress s = true ∧ elapsed s.params (now % 2 ^ s.params.tsW) s.lastT ≤ s.tmo) →
      ∃ i : Instr, decodeKey (mkKey (stCode s.st) b) = .ok i ∧
        exec (.feed b now) s = exec i { s with
          lastT := now % 2 ^ s.params.tsW, out := { acc := true, ev := .none, rdata := 0#32 } })

/-- Every FEED completes where an append's write position names a cell, which every reachable state gives: `acc` says
whether the byte was taken, `last_t` follows it, and the configuration is unchanged (43_port_operations.md R104). -/
def Obligations.FeedCompletes : Prop :=
  ∀ (s : State) (b : Byte) (now : Nat),
    s.st ≠ .unused7 → (s.st = .inData ∨ s.st = .inEscape → s.pos.toNat < 251) →
    ∃ t : State, exec (.feed b now) s = .next t ∧
      (t.out.acc = true ↔ s.st ≠ .idle) ∧ t.out.rdata = 0#32 ∧
      t.lastT = (if s.st = .idle then s.lastT else now % 2 ^ s.params.tsW) ∧
      t.params = s.params ∧ t.tmo = s.tmo ∧ t.inputs = s.inputs ∧ t.st ≠ .unused7

/-! ## The rows of the byte stage -/

/-- RX.IDLE (42_receive_fsm.md R83): any byte in IDLE; it is not taken, nothing is written, and a FEED in IDLE is this. -/
def Obligations.IdleRowTakesNoByte : Prop :=
  ∀ (s : State) (b : Byte),
    decodeKey (mkKey 0#3 b) = .ok (.rxIdle b) ∧
    exec (.rxIdle b) s = .next { s with out := { s.out with acc := false } } ∧
    ∀ now : Nat, s.st = .idle →
      exec (.feed b now) s = .next { s with out := { acc := false, ev := .none, rdata := 0#32 } }

/-- RX.START, RX.SKIP, RX.CHK, RX.LEN, RX.ESC: the rows that only move the parser on (42_receive_fsm.md R84, R85, R86, R89,
R90), each with the keys that select it. -/
def Obligations.HeaderRowsAdvanceTheParser : Prop :=
  ∀ (s : State) (b : Byte),
    (decodeKey (mkKey 1#3 0xAA#8) = .ok .rxStart ∧ exec .rxStart s = .next { s with st := .awaitChecksum }) ∧
    ((b ≠ 0xAA#8 → decodeKey (mkKey 1#3 b) = .ok (.rxSkip b)) ∧ exec (.rxSkip b) s = .next s) ∧
    (decodeKey (mkKey 2#3 b) = .ok (.rxChk b) ∧
      exec (.rxChk b) s = .next { s with chk := b, st := .awaitLength }) ∧
    ((1 ≤ b.toNat → b.toNat ≤ 251 → decodeKey (mkKey 3#3 b) = .ok (.rxLen b)) ∧
      exec (.rxLen b) s = .next { s with len := b, pos := 0x00#8, crc := 0x00#8, st := .inData }) ∧
    (decodeKey (mkKey 4#3 0x5C#8) = .ok .rxEsc ∧ exec .rxEsc s = .next { s with st := .inEscape })

/-- RX.LEN0, RX.LENOVF, RX.DEND, RX.DSTART, RX.NOEND: the rows that raise an error, with the keys that select them, the kind,
and the frame reset (42_receive_fsm.md R87, R88, R91, R92, R96; 60_exceptions.md R119). -/
def Obligations.ErrorRowsRaiseAndResetTheFrame : Prop :=
  ∀ (s : State) (b : Byte),
    (decodeKey (mkKey 3#3 0x00#8) = .ok .rxLen0 ∧
      exec .rxLen0 s = .next { s with
        len := 0x00#8, st := .awaitStart, pos := 0x00#8, crc := 0x00#8, out := { s.out with ev := .error .length } }) ∧
    ((252 ≤ b.toNat → decodeKey (mkKey 3#3 b) = .ok (.rxLenovf b)) ∧
      exec (.rxLenovf b) s = .next { s with
        len := b, st := .awaitStart, pos := 0x00#8, crc := 0x00#8, out := { s.out with ev := .error .overflow } }) ∧
    (decodeKey (mkKey 4#3 0x55#8) = .ok .rxDend ∧
      exec .rxDend s = .next { s with
        st := .awaitStart, pos := 0x00#8, crc := 0x00#8, out := { s.out with ev := .error .length } }) ∧
    (decodeKey (mkKey 4#3 0xAA#8) = .ok .rxDstart ∧
      exec .rxDstart s = .next { s with
        st := .awaitStart, pos := 0x00#8, crc := 0x00#8, out := { s.out with ev := .error .length } }) ∧
    ((b ≠ 0x55#8 → decodeKey (mkKey 6#3 b) = .ok (.rxNoend b)) ∧
      exec (.rxNoend b) s = .next { s with
        st := .awaitStart, pos := 0x00#8, crc := 0x00#8, out := { s.out with ev := .error .frame } })

/-- RX.DATA and RX.EDATA append (42_receive_fsm.md R82, R93, R94): the byte goes to `buf[pos]` and to no other cell, `crc`
and `pos` follow, and the completion test uses the incremented `pos`. -/
def Obligations.DataRowsAppendTheByte : Prop :=
  ∀ (s : State) (b : Byte),
    (b ≠ 0x5C#8 → b ≠ 0x55#8 → b ≠ 0xAA#8 → decodeKey (mkKey 4#3 b) = .ok (.rxData b)) ∧
    decodeKey (mkKey 5#3 b) = .ok (.rxEdata b) ∧
    (s.pos.toNat < 251 →
      ∃ m : Memory,
        (∀ i : Instr, i = .rxData b ∨ i = .rxEdata b →
          exec i s = .next { s with
            buf := m, crc := crc8Step s.crc b, pos := s.pos + 1#8
            st := if s.pos + 1#8 = s.len then .awaitEnd else .inData }) ∧
        ∀ a : Nat, m.cell a = if a = s.pos.toNat then b else s.buf.cell a)

/-- THE MODEL'S CHOICE (log entry 9): an append whose write position is 251 or more names no cell (20_memory.md R33) and
stops with a fault; 42_receive_fsm.md R82's precondition rules it out. -/
def Obligations.AppendOutsideTheBufferFaults : Prop :=
  ∀ (s : State) (b : Byte), 251 ≤ s.pos.toNat →
    exec (.rxData b) s = .fault (.noSuchCell s.pos.toNat) ∧ exec (.rxEdata b) s = .fault (.noSuchCell s.pos.toNat)

/-- RX.END (42_receive_fsm.md R95): END_MARK compares the checksum; the frame is delivered with its length, or fails with
CRC; `len`, `chk` and `buf` are kept. -/
def Obligations.EndRowComparesTheChecksum : Prop :=
  ∀ s : State,
    decodeKey (mkKey 6#3 0x55#8) = .ok .rxEnd ∧
    (s.crc = s.chk → exec .rxEnd s = .next { s with
      st := .awaitStart, pos := 0x00#8, crc := 0x00#8, out := { s.out with ev := .ready s.len } }) ∧
    (s.crc ≠ s.chk → exec .rxEnd s = .next { s with
      st := .awaitStart, pos := 0x00#8, crc := 0x00#8, out := { s.out with ev := .error .crc } })

/-- The unused state code 7: RX.BADSTATE and every port operation are refused (42_receive_fsm.md R97, 43_port_operations.md
R102). -/
def Obligations.UnusedStateIsRefused : Prop :=
  ∀ (s : State) (b : Byte),
    decodeKey (mkKey 7#3 b) = .ok (.rxBadstate b) ∧
    exec (.rxBadstate b) s = .refused .badState ∧
    ∀ i : Instr, s.st = .unused7 → i.isRxRow = false → i ≠ .reset → exec i s = .refused .badState

/-! ## The port operations -/

/-- NOP changes nothing (43_port_operations.md R112). -/
def Obligations.NopChangesNothing : Prop :=
  ∀ s : State, s.st ≠ .unused7 →
    exec .nop s = .next { s with out := { acc := false, ev := .none, rdata := 0#32 } }

/-- TICK (43_port_operations.md R106 with the test of R103): a frame in progress whose elapsed time is strictly more than
`tmo` ends with TIMEOUT; otherwise nothing changes; `last_t` is not written. A time wider than TS_W bits is taken modulo
2^TS_W (log entry 6). -/
def Obligations.TickChecksTheTimeout : Prop :=
  ∀ (s : State) (now : Nat), s.st ≠ .unused7 →
    (inProgress s = true ∧ s.tmo < elapsed s.params (now % 2 ^ s.params.tsW) s.lastT →
      exec (.tick now) s = .next { s with
        st := .awaitStart, pos := 0x00#8, crc := 0x00#8
        out := { acc := false, ev := .error .timeout, rdata := 0#32 } }) ∧
    (¬ (inProgress s = true ∧ s.tmo < elapsed s.params (now % 2 ^ s.params.tsW) s.lastT) →
      exec (.tick now) s = .next { s with out := { acc := false, ev := .none, rdata := 0#32 } })

/-- The elapsed time is the TS_W-bit difference `(now - last_t) mod 2^TS_W` (43_port_operations.md R103): the one number
below 2^TS_W that takes `last_t` to `now`. -/
def Obligations.ElapsedIsTheWrappedDifference : Prop :=
  ∀ (p : Params) (now last : Nat),
    elapsed p now last < 2 ^ p.tsW ∧ (last + elapsed p now last) % 2 ^ p.tsW = now % 2 ^ p.tsW ∧
      ∀ e : Nat, e < 2 ^ p.tsW → (last + e) % 2 ^ p.tsW = now % 2 ^ p.tsW → e = elapsed p now last

/-- START_RX and STOP_RX (43_port_operations.md R107, R108): START_RX has an effect from IDLE alone; STOP_RX ends a frame in
progress with no event. -/
def Obligations.StartAndStopReception : Prop :=
  ∀ s : State, s.st ≠ .unused7 →
    (s.st = .idle → exec .startRx s = .next { s with
      st := .awaitStart, pos := 0x00#8, crc := 0x00#8, out := { acc := false, ev := .none, rdata := 0#32 } }) ∧
    (s.st ≠ .idle → exec .startRx s = .next { s with out := { acc := false, ev := .none, rdata := 0#32 } }) ∧
    exec .stopRx s = .next { s with
      st := .idle, pos := 0x00#8, crc := 0x00#8, out := { acc := false, ev := .none, rdata := 0#32 } }

/-- SET_TIMEOUT (43_port_operations.md R109) writes `tmo` and nothing else, and the next check uses the new value, in a frame
already in progress too (70_reset_and_hazards.md R137). A value wider than TS_W bits is taken modulo 2^TS_W (log entry 6). -/
def Obligations.SetTimeoutTakesEffectAtOnce : Prop :=
  ∀ (s : State) (v now : Nat), s.st ≠ .unused7 →
    ∃ t : State, exec (.setTimeout v) s = .next t ∧
      t = { s with tmo := v % 2 ^ s.params.tsW, out := { acc := false, ev := .none, rdata := 0#32 } } ∧
      (inProgress s = true → v % 2 ^ s.params.tsW < elapsed s.params (now % 2 ^ s.params.tsW) s.lastT →
        exec (.tick now) t = .next { t with
          st := .awaitStart, pos := 0x00#8, crc := 0x00#8
          out := { acc := false, ev := .error .timeout, rdata := 0#32 } })

/-- READ_BUF (43_port_operations.md R110; 20_memory.md R35): the cell's byte zero-extended for an index below 251, 0 for 251
to 255; nothing else changes. -/
def Obligations.ReadBufReturnsTheCell : Prop :=
  ∀ (s : State) (i : Byte), s.st ≠ .unused7 →
    (i.toNat < 251 → exec (.readBuf i) s = .next { s with
      out := { acc := false, ev := .none, rdata := (s.buf.cell i.toNat).setWidth 32 } }) ∧
    (251 ≤ i.toNat → exec (.readBuf i) s = .next { s with out := { acc := false, ev := .none, rdata := 0#32 } })

/-- READ_STATUS (43_port_operations.md R111): the STATUS word, whose fields `StatusWordFields` gives; nothing else changes. -/
def Obligations.ReadStatusReturnsTheStatusWord : Prop :=
  ∀ s : State, s.st ≠ .unused7 →
    exec .readStatus s = .next { s with
      out := { acc := false, ev := .none,
               rdata := s.chk ++ s.pos ++ s.len ++ 0#3 ++ BitVec.ofBool (inProgress s) ++
                 BitVec.ofBool (rxEnabled s) ++ stCode s.st } }

/-! ## The outputs, the errors and the buffer, over all operations -/

/-- `acc` is 1 exactly for a FEED in a state other than IDLE (30_encoding.md R61), and `rdata` is 0 but for the two reads
(R64). -/
def Obligations.OutputsOfEveryOperation : Prop :=
  ∀ (i : Instr) (s t : State), i.isRxRow = false → exec i s = .next t →
    (t.out.acc = true ↔ (∃ b now, i = .feed b now) ∧ s.st ≠ .idle) ∧
    ((∀ a, i ≠ .readBuf a) → i ≠ .readStatus → t.out.rdata = 0#32)

/-- In IDLE and AWAIT_START no operation emits an event, TIMEOUT among them, whatever `now` is (43_port_operations.md R115;
60_exceptions.md R124, R126). -/
def Obligations.NoEventWithNoFrameInProgress : Prop :=
  ∀ (i : Instr) (s t : State), i.isRxRow = false → s.st = .idle ∨ s.st = .awaitStart → exec i s = .next t →
    t.out.ev = .none

/-- An event ends the attempt it reports (60_exceptions.md R119, R120): a frame was in progress, the frame is reset, the
buffer and the registers R119 does not write are kept but for what the byte stage wrote, and the block scans again. The one
operation that leaves another state is the FEED of a START_MARK to a stalled frame, which starts the next attempt. -/
def Obligations.AnEventEndsTheAttempt : Prop :=
  ∀ (i : Instr) (s t : State), i.isRxRow = false → exec i s = .next t → t.out.ev ≠ .none →
    inProgress s = true ∧ t.pos = 0x00#8 ∧ t.crc = 0x00#8 ∧ t.buf = s.buf ∧ t.chk = s.chk ∧ t.tmo = s.tmo ∧
    (s.st ≠ .awaitLength → t.len = s.len) ∧
    (t.st = .awaitStart ∨
      (t.st = .awaitChecksum ∧ t.out.ev = .error .timeout ∧ ∃ now, i = .feed 0xAA#8 now))

/-- What an error leaves visible (60_exceptions.md R121): STATUS in the next step shows STATE = AWAIT_START, RX_EN = 1,
BUSY = 0 and POS = 0, with the LEN and CHK registers the error left. -/
def Obligations.StatusAfterAnError : Prop :=
  ∀ (i : Instr) (s t : State) (k : ErrKind), i.isRxRow = false → exec i s = .next t → t.out.ev = .error k →
    t.st = .awaitStart →
    exec .readStatus t = .next { t with
      out := { acc := false, ev := .none, rdata := t.chk ++ 0x00#8 ++ t.len ++ 0x09#8 } }

/-- The buffer is written only by an append (20_memory.md R34): an operation other than FEED writes no cell, and a FEED
writes at most `buf[pos]`, and only in IN_DATA or IN_ESCAPE with no timeout before the byte; a FEED of ESC, END_MARK or
START_MARK in IN_DATA appends nothing (42_receive_fsm.md R90 to R92) and writes no cell. -/
def Obligations.BufferIsWrittenOnlyByAppend : Prop :=
  ∀ (i : Instr) (s t : State), i.isRxRow = false → exec i s = .next t →
    ((∀ b now, i ≠ .feed b now) → t.buf = s.buf) ∧
    (∀ b now, i = .feed b now →
      (∀ a : Nat, a ≠ s.pos.toNat → t.buf.cell a = s.buf.cell a) ∧
      (s.st ≠ .inData → s.st ≠ .inEscape → t.buf = s.buf) ∧
      (s.st = .inData → b = 0x5C#8 ∨ b = 0x55#8 ∨ b = 0xAA#8 → t.buf = s.buf) ∧
      (s.tmo < elapsed s.params (now % 2 ^ s.params.tsW) s.lastT → t.buf = s.buf))

/-! ## The checksum -/

/-- The table form (40_checksum.md R69 with the table of R74): `crc8_step(c, b) = T[c ^ b]`. -/
def Obligations.CrcStepIsTheTable : Prop :=
  ∀ c b : Byte, crc8Step c b = crcTableAt (c ^^^ b)

/-- The running form (40_checksum.md R70): CRC8 of the empty list is the seed 0x00, and each byte is folded in by
`crc8_step`; a payload of zeros has CRC8 0x00 at every length. -/
def Obligations.CrcOfAListRunsByteByByte : Prop :=
  crc8 [] = 0x00#8 ∧ (∀ (p : List Byte) (b : Byte), crc8 (p ++ [b]) = crc8Step (crc8 p) b) ∧
    ∀ n : Nat, crc8 (List.replicate n 0x00#8) = 0x00#8

/-- Linearity (40_checksum.md R72): for lists of equal length, CRC8 of the bytewise exclusive or is the exclusive or of the
two, so a corrupted payload passes exactly when its error pattern has CRC8 0x00. -/
def Obligations.CrcIsLinear : Prop :=
  ∀ a b : List Byte, a.length = b.length →
    crc8 (List.zipWith (· ^^^ ·) a b) = crc8 a ^^^ crc8 b ∧
    (crc8 (List.zipWith (· ^^^ ·) a b) = crc8 a ↔ crc8 b = 0x00#8)

/-- Detection (40_checksum.md R73): an error confined to 8 consecutive bits changes the CRC8. Bits are counted as the
checksum consumes them, least significant bit of each byte first (R68, 20_memory.md R36): a burst lies in one byte, or in two
adjacent bytes as the 8-bit window `u` shifted by `sh` bits. -/
def Obligations.CrcDetectsBurstsOfEightBits : Prop :=
  ∀ (i j : Nat) (u : Byte) (sh : Nat), u ≠ 0x00#8 → sh ≤ 8 → i + j + 2 ≤ 251 →
    crc8 (List.replicate i 0x00#8 ++ [u] ++ List.replicate j 0x00#8) ≠ 0x00#8 ∧
    crc8 (List.replicate i 0x00#8 ++
        [((u.setWidth 16) <<< sh).extractLsb' 0 8, ((u.setWidth 16) <<< sh).extractLsb' 8 8] ++
        List.replicate j 0x00#8) ≠ 0x00#8

/-! ## The reference encoder -/

/-- ENCODE of an empty payload is empty, a payload is cut to 251 bytes, and the byte count is 4 + len(q) + n with n the
number of reserved bytes of q (41_encoder_reference.md R76, R77, R78). -/
def Obligations.EncoderLengthAndTruncation : Prop :=
  encodeFrame [] = [] ∧
  (∀ p : List Byte, encodeFrame p = encodeFrame (p.take 251)) ∧
  ∀ p : List Byte, p ≠ [] →
    (encodeFrame p).length =
        4 + (p.take 251).length + ((p.take 251).filter fun b => b == 0xAA#8 || b == 0x55#8 || b == 0x5C#8).length ∧
      5 ≤ (encodeFrame p).length ∧ (encodeFrame p).length ≤ 506

/-! ## Runs: the byte language -/

/-- Round trip (41_encoder_reference.md R80): from AWAIT_START with any other register values, the bytes of ENCODE(p) with
gaps of at most `tmo` give no event until the last, which gives READY(len(p)); then the buffer reads p and the block scans
again. -/
def Obligations.EncodedFrameIsDelivered : Prop :=
  ∀ (s : State) (p : List Byte) (ts : List Nat),
    s.st = .awaitStart → 1 ≤ p.length → p.length ≤ 251 → ts.length = (encodeFrame p).length →
    GapsWithin s.params s.tmo ts →
    ∃ tr : List Transition,
      runTrace s (feedsAt (encodeFrame p) ts) = some tr ∧
      events tr = List.replicate (ts.length - 1) .none ++ [.ready (BitVec.ofNat 8 p.length)] ∧
      (finalState s tr).st = .awaitStart ∧
      ∀ k : Nat, k < p.length → (finalState s tr).buf.read k = p.getD k 0x00#8

/-- Acceptance, one direction (42_receive_fsm.md R98): a segment fed from AWAIT_START without a timeout gives no event until
its END_MARK, which gives READY(L) if the CHECKSUM is the CRC8 of the decoded bytes and ERROR(CRC) if not; the buffer holds
the decoded bytes. -/
def Obligations.SegmentIsDecoded : Prop :=
  ∀ (s : State) (c : Byte) (us : List WireUnit) (ts : List Nat),
    s.st = .awaitStart → 1 ≤ us.length → us.length ≤ 251 → (∀ u ∈ us, u.valid = true) →
    ts.length = (segment c us).length → GapsWithin s.params s.tmo ts →
    ∃ tr : List Transition,
      runTrace s (feedsAt (segment c us) ts) = some tr ∧
      events tr = List.replicate (ts.length - 1) .none ++
        [if crc8 (us.map WireUnit.payload) = c then .ready (BitVec.ofNat 8 us.length) else .error .crc] ∧
      (finalState s tr).st = .awaitStart ∧
      ∀ k : Nat, k < us.length → (finalState s tr).buf.read k = (us.map WireUnit.payload).getD k 0x00#8

/-- Acceptance, the other direction (42_receive_fsm.md R98): where a step of a run of taken bytes from AWAIT_START without a
timeout emits READY(L), the bytes up to it end in a segment that began in AWAIT_START, whose L units decode to bytes with the
CHECKSUM's CRC8, and the buffer holds those bytes. -/
def Obligations.ReadyOnlyAfterASegment : Prop :=
  ∀ (s : State) (bs : List Byte) (ts : List Nat) (tr : List Transition) (l : Byte),
    s.st = .awaitStart → ts.length = bs.length → GapsWithin s.params s.tmo ts →
    runTrace s (feedsAt bs ts) = some tr → (events tr).getLast? = some (.ready l) →
    ∃ (before : List Byte) (c : Byte) (us : List WireUnit) (tr0 : List Transition),
      bs = before ++ segment c us ∧
      runTrace s (feedsAt before ts) = some tr0 ∧ (finalState s tr0).st = .awaitStart ∧
      1 ≤ us.length ∧ us.length ≤ 251 ∧ l = BitVec.ofNat 8 us.length ∧ (∀ u ∈ us, u.valid = true) ∧
      crc8 (us.map WireUnit.payload) = c ∧
      ∀ k : Nat, k < us.length → (finalState s tr).buf.read k = (us.map WireUnit.payload).getD k 0x00#8

/-- Resynchronisation (42_receive_fsm.md R99): from AWAIT_START any run of bytes none of which is START_MARK emits no event
and leaves AWAIT_START, with every register but `last_t` and all of the buffer as they were. -/
def Obligations.GarbageIsSkipped : Prop :=
  ∀ (s : State) (bs : List Byte) (ts : List Nat),
    s.st = .awaitStart → ts.length = bs.length → (∀ b ∈ bs, b ≠ 0xAA#8) →
    ∃ tr : List Transition,
      runTrace s (feedsAt bs ts) = some tr ∧ events tr = List.replicate bs.length .none ∧
      (finalState s tr).st = .awaitStart ∧ (finalState s tr).buf = s.buf ∧ (finalState s tr).chk = s.chk ∧
      (finalState s tr).len = s.len ∧ (finalState s tr).pos = s.pos ∧ (finalState s tr).crc = s.crc ∧
      (finalState s tr).tmo = s.tmo

/-- A flipped payload bit that leaves the byte's framing alone (42_receive_fsm.md R100, first and last case): the byte `y`
stands after an ESC, or the flipped value is not reserved; then the frame gives exactly one event, ERROR(CRC) at its
END_MARK. -/
def Obligations.FlippedDataBitGivesCrcError : Prop :=
  ∀ (s : State) (q0 q1 : List Byte) (y : Byte) (bit : Nat) (ts : List Nat),
    s.st = .awaitStart → q0.length + 1 + q1.length ≤ 251 → bit < 8 →
    (Config.isReserved y = true ∨ Config.isReserved (y ^^^ (1#8 <<< bit)) = false) →
    ts.length = (encodeFrame (q0 ++ [y] ++ q1)).length → GapsWithin s.params s.tmo ts →
    ∃ tr : List Transition,
      runTrace s (feedsAt
        (frameBytes (crc8 (q0 ++ [y] ++ q1)) (BitVec.ofNat 8 (q0.length + 1 + q1.length))
          (escapePayload q0 ++
            (if Config.isReserved y then [Config.esc, y ^^^ (1#8 <<< bit)] else [y ^^^ (1#8 <<< bit)]) ++
            escapePayload q1)) ts) = some tr ∧
      events tr = List.replicate (ts.length - 1) .none ++ [.error .crc]

/-- The closing claim of 42_receive_fsm.md R100, "In no case is READY emitted within the bytes of w", as it stands. It is
expected to FAIL: after the ERROR(LENGTH) of R100's second case the rest of the frame is scanned, and an escaped 0xAA in it
can start a false attempt that ends in a READY within the frame, as R99 itself allows (log entry 14). -/
def Obligations.FlippedPayloadBitNeverGivesReady : Prop :=
  ∀ (s : State) (p : List Byte) (i bit : Nat) (ts : List Nat) (tr : List Transition),
    s.st = .awaitStart → 1 ≤ p.length → p.length ≤ 251 → 3 ≤ i → i + 1 < (encodeFrame p).length → bit < 8 →
    ts.length = (encodeFrame p).length → GapsWithin s.params s.tmo ts →
    runTrace s (feedsAt
      ((encodeFrame p).set i ((encodeFrame p).getD i 0x00#8 ^^^ (1#8 <<< bit))) ts) = some tr →
    ∀ l : Byte, .ready l ∉ events tr

/-- A delivered payload stays (20_memory.md R46, R47): over a run in which no step appends a payload byte no cell of the
buffer changes, so that the cells keep their bytes until the first payload byte of a later frame. Steps in IN_DATA and
IN_ESCAPE that append nothing are in the run: any operation but FEED, a FEED of a reserved byte in IN_DATA, and a FEED after
a timeout. -/
def Obligations.BufferStaysUntilTheNextAppend : Prop :=
  ∀ (s : State) (xs : List PortInput) (tr : List Transition),
    runTrace s xs = some tr → (∀ x ∈ tr, x.appends = false) →
    ∀ i : Nat, (finalState s tr).buf.read i = s.buf.read i

/-! ## Runs: events, attempts, and what a frame can see of the last one -/

/-- A stall is reported once (43_port_operations.md R114): from a state with no frame in progress, a run in which no step
takes a START_MARK in AWAIT_START emits no event at all, a second TIMEOUT among them. -/
def Obligations.NoSecondTimeoutBeforeANewStart : Prop :=
  ∀ (s : State) (xs : List PortInput) (tr : List Transition),
    inProgress s = false → runTrace s xs = some tr → (∀ x ∈ tr, x.startsAttempt = false) →
    (∀ e ∈ events tr, e = .none) ∧ inProgress (finalState s tr) = false

/-- Event accounting (60_exceptions.md R127): over any run, the attempts started and the one in progress at its start are as
many as those resolved by an event, those aborted by STOP_RX or reset, and the one in progress at its end. -/
def Obligations.EveryAttemptEndsOnce : Prop :=
  ∀ (s : State) (xs : List PortInput) (tr : List Transition),
    runTrace s xs = some tr →
    tr.countP Transition.startsAttempt + (if inProgress s then 1 else 0) =
      tr.countP Transition.resolvesAttempt + tr.countP Transition.abortsAttempt +
        (if inProgress (finalState s tr) then 1 else 0)

/-- After a frame the block is indistinguishable, for the next frame, from a fresh one (10_state.md R30): two states with no
frame in progress that agree on the parameters, `st` and `tmo`, whatever `chk`, `len`, `pos`, `crc`, `last_t` and `buf` are,
give the same events and the same `acc` for every sequence of operations. -/
def Obligations.LeftoversChangeNoEvent : Prop :=
  ∀ (s s' : State) (xs : List PortInput) (tr : List Transition),
    inProgress s = false → s.st = s'.st → s.params = s'.params → s.tmo = s'.tmo → runTrace s xs = some tr →
    ∃ tr' : List Transition, runTrace s' xs = some tr' ∧ events tr = events tr' ∧
      tr.map (fun x => x.after.out.acc) = tr'.map (fun x => x.after.out.acc)

/-! ## Invariants and progress -/

/-- The invariants of 10_state.md R29 and R30, the widths of the time registers, the canonical form of the buffer and the
seven states are kept by every step that answers a next state. -/
def Obligations.InvariantIsKeptByEveryStep : Prop :=
  ∀ s t : State, Inv s → step s = .next t → Inv t

/-- The invariant holds at power-on, for every parameters the spec allows (10_state.md R31), and at `State.reset`. -/
def Obligations.InvariantHoldsAtPowerOn : Prop :=
  (∀ p : Params, p.Legal → Inv (State.powerOn p)) ∧ Inv State.reset

/-- The block never faults or halts (00_scope.md R14; 70_reset_and_hazards.md R140): from every state that meets the
invariant every step completes, whatever is presented, and no step changes the parameters. -/
def Obligations.EveryStepCompletes : Prop :=
  ∀ s : State, Inv s →
    ∃ t : State, step s = .next t ∧ t.params = s.params ∧ t.inputs = s.inputs.tail

/-- Progress (70_reset_and_hazards.md R140): STOP_RX then START_RX reach AWAIT_START; one TICK at `last_t + tmo + 1` ends a
stalled frame when `tmo` < 2^TS_W − 1; with `tmo` = 2^TS_W − 1 no time ever ends one. -/
def Obligations.AStalledFrameCanBeEnded : Prop :=
  ∀ s : State, Inv s →
    (∃ t u : State, exec .stopRx s = .next t ∧ exec .startRx t = .next u ∧ u.st = .awaitStart) ∧
    (inProgress s = true → s.tmo + 1 < 2 ^ s.params.tsW →
      ∃ t : State, exec (.tick (s.lastT + s.tmo + 1)) s = .next t ∧ t.out.ev = .error .timeout ∧ t.st = .awaitStart) ∧
    (s.tmo + 1 = 2 ^ s.params.tsW → ∀ now : Nat, timedOut s now = false)
end

