-- ==== Sys2Proof/Laws/Checksum.lean ====
section
/-! SUPPORT. How the CRC-8 of a list is built up (40_checksum.md R70). -/

namespace Sys2Proof.Machine

@[simp] theorem crc8From_nil (c : Byte) : crc8From c [] = c := rfl

@[simp] theorem crc8From_cons (c b : Byte) (p : List Byte) : crc8From c (b :: p) = crc8From (crc8Step c b) p := rfl

theorem crc8From_append (c : Byte) (p q : List Byte) : crc8From c (p ++ q) = crc8From (crc8From c p) q := by
  induction p generalizing c with
  | nil => rfl
  | cons b p ih => exact ih _

@[simp] theorem crc8_nil : crc8 [] = 0x00#8 := rfl

/-- One round depends on `c` and `b` through the bit `mix` alone. -/
theorem crc8Bit_eq (c b : Byte) :
    crc8Bit c b = (c >>> 1) ^^^ (if (c ^^^ b).getLsbD 0 then Config.crcPoly else 0x00#8) := by
  unfold crc8Bit
  split <;> simp

/-- One round distributes over exclusive or. -/
theorem crc8Bit_xor (c c' b b' : Byte) : crc8Bit (c ^^^ c') (b ^^^ b') = crc8Bit c b ^^^ crc8Bit c' b' := by
  have hb : (c ^^^ c' ^^^ (b ^^^ b')).getLsbD 0 = ((c ^^^ b).getLsbD 0 ^^ (c' ^^^ b').getLsbD 0) := by
    simp only [BitVec.getLsbD_xor]
    cases c.getLsbD 0 <;> cases c'.getLsbD 0 <;> cases b.getLsbD 0 <;> cases b'.getLsbD 0 <;> rfl
  simp only [crc8Bit_eq, hb, BitVec.ushiftRight_xor_distrib]
  have hpp : ∀ x y : Byte, x ^^^ y = (x ^^^ Config.crcPoly) ^^^ (y ^^^ Config.crcPoly) := by
    intro x y
    rw [BitVec.xor_assoc, BitVec.xor_comm y, ← BitVec.xor_assoc Config.crcPoly]
    simp
  cases (c ^^^ b).getLsbD 0 <;> cases (c' ^^^ b').getLsbD 0
  · simp
  · simp [BitVec.xor_assoc]
  · simp only [Bool.xor_false, if_true, Bool.false_eq_true, if_false, BitVec.xor_zero]
    ac_rfl
  · simpa using hpp (c >>> 1) (c' >>> 1)

end Sys2Proof.Machine
end

