-- ==== Sys2Proof/Laws/Config.lean ====
section
/-! SUPPORT. The constants as numerals, for arithmetic, and the reserved bytes as equations. -/

namespace Sys2Proof

@[simp] theorem Config.bufCap_eq : Config.bufCap = 251 := rfl

@[simp] theorem Config.maxPayload_eq : Config.maxPayload = 251 := rfl

/-- The reserved bytes are the three of 00_scope.md R9. -/
theorem Config.isReserved_iff (b : Byte) : Config.isReserved b = true ↔ b = 0xAA#8 ∨ b = 0x55#8 ∨ b = 0x5C#8 := by
  simp [Config.isReserved, or_assoc]

theorem Config.isReserved_false_iff (b : Byte) :
    Config.isReserved b = false ↔ b ≠ 0xAA#8 ∧ b ≠ 0x55#8 ∧ b ≠ 0x5C#8 := by
  simp [Config.isReserved, and_assoc]

theorem Config.resetParams_legal : Config.resetParams.Legal := by decide

end Sys2Proof
end

