-- ==== Sys2Proof/Laws/Decode.lean ====
section
/-! SUPPORT. The fields of a key and of an operation word, and what the two decoders give, state by state. -/

namespace Sys2Proof

@[simp] theorem keyByte_mkKey (st : BitVec 3) (b : Byte) : keyByte (mkKey st b) = b := by
  revert st b; decide +kernel

@[simp] theorem keyState_mkKey (st : BitVec 3) (b : Byte) : keyState (mkKey st b) = st := by
  revert st b; decide +kernel

@[simp] theorem mkKey_fields (k : Key) : mkKey (keyState k) (keyByte k) = k := by
  revert k; decide +kernel

@[simp] theorem wordOp_mkWord (op : BitVec 3) (arg : Byte) : wordOp (mkWord op arg) = op := by
  revert op arg; decide +kernel

@[simp] theorem wordArg_mkWord (op : BitVec 3) (arg : Byte) : wordArg (mkWord op arg) = arg := by
  revert op arg; decide +kernel

@[simp] theorem mkWord_fields (w : OpWord) : mkWord (wordOp w) (wordArg w) = w := by
  revert w; decide +kernel

/-! ## The key table, state by state (30_encoding.md R56) -/

theorem decodeKey_idle (b : Byte) : decodeKey (mkKey 0#3 b) = .ok (.rxIdle b) := by
  revert b; decide +kernel

theorem decodeKey_awaitStart (b : Byte) :
    decodeKey (mkKey 1#3 b) = .ok (if b = Config.startMark then .rxStart else .rxSkip b) := by
  revert b; decide +kernel

theorem decodeKey_awaitChecksum (b : Byte) : decodeKey (mkKey 2#3 b) = .ok (.rxChk b) := by
  revert b; decide +kernel

theorem decodeKey_awaitLength (b : Byte) :
    decodeKey (mkKey 3#3 b) =
      .ok (if b = 0x00#8 then .rxLen0 else if Config.bufCap < b.toNat then .rxLenovf b else .rxLen b) := by
  revert b; decide +kernel

theorem decodeKey_inData (b : Byte) :
    decodeKey (mkKey 4#3 b) =
      .ok (if b = Config.esc then .rxEsc else if b = Config.endMark then .rxDend
        else if b = Config.startMark then .rxDstart else .rxData b) := by
  revert b; decide +kernel

theorem decodeKey_inEscape (b : Byte) : decodeKey (mkKey 5#3 b) = .ok (.rxEdata b) := by
  revert b; decide +kernel

theorem decodeKey_awaitEnd (b : Byte) :
    decodeKey (mkKey 6#3 b) = .ok (if b = Config.endMark then .rxEnd else .rxNoend b) := by
  revert b; decide +kernel

theorem decodeKey_unused7 (b : Byte) : decodeKey (mkKey 7#3 b) = .ok (.rxBadstate b) := by
  revert b; decide +kernel

/-- The key decoder never gives a port operation (30_encoding.md R56). -/
theorem decodeKey_isRxRow {k : Key} {i : Instr} (h : decodeKey k = .ok i) : i.isRxRow = true := by
  have hall : ∀ k : Key, (match decodeKey k with | .ok i => i.isRxRow | .error _ => false) = true := by decide +kernel
  simpa [h] using hall k

/-! ## The port operations (30_encoding.md R58, R59) -/

@[simp] theorem decodeInput_rst (w : OpWord) (t : Nat) : decodeInput { rst := true, w := w, t := t } = .reset := rfl

@[simp] theorem decodeInput_rstPort : decodeInput rstPort = .reset := rfl

theorem decodeInput_mkPort (op : BitVec 3) (arg : Byte) (t : Nat) :
    decodeInput (mkPort op arg t) = decodeOp (mkWord op arg) t := rfl

@[simp] theorem decodeInput_nop (arg : Byte) (t : Nat) : decodeInput (mkPort 0#3 arg t) = .nop := by
  simp [decodeInput_mkPort, decodeOp]

@[simp] theorem decodeInput_feed (b : Byte) (t : Nat) : decodeInput (mkPort 1#3 b t) = .feed b t := by
  simp [decodeInput_mkPort, decodeOp]

@[simp] theorem decodeInput_tick (arg : Byte) (t : Nat) : decodeInput (mkPort 2#3 arg t) = .tick t := by
  simp [decodeInput_mkPort, decodeOp]

@[simp] theorem decodeInput_startRx (arg : Byte) (t : Nat) : decodeInput (mkPort 3#3 arg t) = .startRx := by
  simp [decodeInput_mkPort, decodeOp]

@[simp] theorem decodeInput_stopRx (arg : Byte) (t : Nat) : decodeInput (mkPort 4#3 arg t) = .stopRx := by
  simp [decodeInput_mkPort, decodeOp]

@[simp] theorem decodeInput_setTimeout (arg : Byte) (t : Nat) : decodeInput (mkPort 5#3 arg t) = .setTimeout t := by
  simp [decodeInput_mkPort, decodeOp]

@[simp] theorem decodeInput_readBuf (i : Byte) (t : Nat) : decodeInput (mkPort 6#3 i t) = .readBuf i := by
  simp [decodeInput_mkPort, decodeOp]

@[simp] theorem decodeInput_readStatus (arg : Byte) (t : Nat) : decodeInput (mkPort 7#3 arg t) = .readStatus := by
  simp [decodeInput_mkPort, decodeOp]

end Sys2Proof
end

