-- ==== Sys2Proof/Laws/Memory.lean ====
section
/-! SUPPORT. The laws of the receive buffer: a read after a write, every other cell unchanged, and the canonical form kept by
every operation that writes it. -/

namespace Sys2Proof.Machine

@[simp] theorem Memory.lookup_nil (a : Nat) : Memory.lookup [] a = none := rfl

theorem Memory.lookup_cons (k : Nat) (v : Byte) (m : Memory) (a : Nat) :
    Memory.lookup ((k, v) :: m) a = if k = a then some v else Memory.lookup m a := rfl

/-- A cell that lies below every listed one is not listed. -/
theorem Memory.lookup_below {m : Memory} {a : Nat} (h : ∀ c ∈ m, a < c.1) : m.lookup a = none := by
  induction m with
  | nil => rfl
  | cons c m ih =>
    have hc : a < c.1 := h c List.mem_cons_self
    rw [show c = (c.1, c.2) from rfl, Memory.lookup_cons, if_neg (by omega)]
    exact ih fun d hd => h d (List.mem_cons_of_mem _ hd)

/-- A read after a write to the same cell gives the byte written. -/
@[simp] theorem Memory.lookup_store_same (m : Memory) (a : Nat) (v : Byte) : (Memory.store m a v).lookup a = some v := by
  induction m with
  | nil => simp [Memory.store, Memory.lookup_cons]
  | cons c m ih =>
    obtain ⟨k, w⟩ := c
    simp only [Memory.store]
    split
    · simp [Memory.lookup_cons]
    · split
      · simp [Memory.lookup_cons]
      · rw [Memory.lookup_cons, if_neg (by omega), ih]

/-- A write leaves every other cell alone. -/
theorem Memory.lookup_store_other (m : Memory) {a a' : Nat} (v : Byte) (h : a' ≠ a) :
    (Memory.store m a v).lookup a' = m.lookup a' := by
  induction m with
  | nil => simp [Memory.store, Memory.lookup_cons, Ne.symm h]
  | cons c m ih =>
    obtain ⟨k, w⟩ := c
    simp only [Memory.store]
    split
    · rw [Memory.lookup_cons, if_neg (Ne.symm h)]
    · split
      · rename_i hk
        subst hk
        simp [Memory.lookup_cons, Ne.symm h]
      · simp [Memory.lookup_cons, ih]

/-- Every cell after a write. -/
theorem Memory.cell_store (m : Memory) (a a' : Nat) (v : Byte) :
    (Memory.store m a v).cell a' = if a' = a then v else m.cell a' := by
  unfold Memory.cell
  split
  · rename_i h
    subst h
    simp
  · rename_i h
    rw [Memory.lookup_store_other m v h]

/-- The entries after a write are the old ones and the one written. -/
theorem Memory.mem_store {m : Memory} {a : Nat} {v : Byte} {c : Host.Cell} (h : c ∈ Memory.store m a v) :
    c = (a, v) ∨ c ∈ m := by
  induction m with
  | nil => simpa [Memory.store] using h
  | cons d m ih =>
    obtain ⟨k, w⟩ := d
    simp only [Memory.store] at h
    split at h
    · simpa using h
    · split at h
      · rcases List.mem_cons.1 h with h | h
        · exact .inl h
        · exact .inr (List.mem_cons_of_mem _ h)
      · rcases List.mem_cons.1 h with h | h
        · exact .inr (by simp [h])
        · exact (ih h).imp_right (List.mem_cons_of_mem _)

/-- A write keeps the indices strictly rising. -/
theorem Memory.store_sorted {m : Memory} (a : Nat) (v : Byte) (h : m.Pairwise (fun x y => x.1 < y.1)) :
    (Memory.store m a v).Pairwise (fun x y => x.1 < y.1) := by
  induction m with
  | nil => simp [Memory.store]
  | cons d m ih =>
    obtain ⟨k, w⟩ := d
    have hk := (List.pairwise_cons.1 h).1
    have hm := (List.pairwise_cons.1 h).2
    simp only [Memory.store]
    split
    · rename_i hlt
      refine List.pairwise_cons.2 ⟨fun c hc => ?_, h⟩
      rcases List.mem_cons.1 hc with rfl | hc
      · exact hlt
      · exact Nat.lt_trans hlt (hk c hc)
    · split
      · rename_i _ heq
        subst heq
        exact List.pairwise_cons.2 ⟨hk, hm⟩
      · refine List.pairwise_cons.2 ⟨fun c hc => ?_, ih hm⟩
        rcases Memory.mem_store hc with rfl | hc
        · show k < a
          omega
        · exact hk c hc

/-- A write to one of the 251 cells keeps the canonical form. -/
theorem Memory.wf_store {m : Memory} {a : Nat} (v : Byte) (h : Memory.wf m) (ha : a < Config.bufCap) :
    Memory.wf (Memory.store m a v) := by
  refine ⟨Memory.store_sorted a v h.1, fun c hc => ?_⟩
  rcases Memory.mem_store hc with rfl | hc
  · exact ha
  · exact h.2 c hc

/-- The empty buffer is in canonical form. -/
theorem Memory.wf_nil : Memory.wf [] := ⟨List.Pairwise.nil, by simp⟩

/-- READ_BUF's read after a write (20_memory.md R35). -/
theorem Memory.read_store (m : Memory) (a i : Nat) (v : Byte) (ha : a < Config.bufCap) :
    (Memory.store m a v).read i = if i = a then v else m.read i := by
  unfold Memory.read
  rw [Memory.cell_store]
  split
  · rfl
  · split
    · omega
    · rfl

end Sys2Proof.Machine
end

