-- ==== Sys2Proof/Laws/State.lean ====
section
/-! SUPPORT. One lemma per field per named update of the state, so that no proof unfolds a record update. -/

namespace Sys2Proof.Machine

/-! ### `clearOut`: a clear output record -/

@[simp] theorem State.clearOut_params (s : State) : (s.clearOut).params = s.params := rfl
@[simp] theorem State.clearOut_st (s : State) : (s.clearOut).st = s.st := rfl
@[simp] theorem State.clearOut_chk (s : State) : (s.clearOut).chk = s.chk := rfl
@[simp] theorem State.clearOut_len (s : State) : (s.clearOut).len = s.len := rfl
@[simp] theorem State.clearOut_pos (s : State) : (s.clearOut).pos = s.pos := rfl
@[simp] theorem State.clearOut_crc (s : State) : (s.clearOut).crc = s.crc := rfl
@[simp] theorem State.clearOut_lastT (s : State) : (s.clearOut).lastT = s.lastT := rfl
@[simp] theorem State.clearOut_tmo (s : State) : (s.clearOut).tmo = s.tmo := rfl
@[simp] theorem State.clearOut_buf (s : State) : (s.clearOut).buf = s.buf := rfl
@[simp] theorem State.clearOut_inputs (s : State) : (s.clearOut).inputs = s.inputs := rfl
@[simp] theorem State.clearOut_out (s : State) : (s.clearOut).out = Output.clear := rfl

/-! ### `setAcc`: the output `acc` -/

@[simp] theorem State.setAcc_params (s : State) (a : Bool) : (s.setAcc a).params = s.params := rfl
@[simp] theorem State.setAcc_st (s : State) (a : Bool) : (s.setAcc a).st = s.st := rfl
@[simp] theorem State.setAcc_chk (s : State) (a : Bool) : (s.setAcc a).chk = s.chk := rfl
@[simp] theorem State.setAcc_len (s : State) (a : Bool) : (s.setAcc a).len = s.len := rfl
@[simp] theorem State.setAcc_pos (s : State) (a : Bool) : (s.setAcc a).pos = s.pos := rfl
@[simp] theorem State.setAcc_crc (s : State) (a : Bool) : (s.setAcc a).crc = s.crc := rfl
@[simp] theorem State.setAcc_lastT (s : State) (a : Bool) : (s.setAcc a).lastT = s.lastT := rfl
@[simp] theorem State.setAcc_tmo (s : State) (a : Bool) : (s.setAcc a).tmo = s.tmo := rfl
@[simp] theorem State.setAcc_buf (s : State) (a : Bool) : (s.setAcc a).buf = s.buf := rfl
@[simp] theorem State.setAcc_inputs (s : State) (a : Bool) : (s.setAcc a).inputs = s.inputs := rfl
@[simp] theorem State.setAcc_out (s : State) (a : Bool) : (s.setAcc a).out = { s.out with acc := a } := rfl

/-! ### `setEv`: the output `ev` -/

@[simp] theorem State.setEv_params (s : State) (e : Event) : (s.setEv e).params = s.params := rfl
@[simp] theorem State.setEv_st (s : State) (e : Event) : (s.setEv e).st = s.st := rfl
@[simp] theorem State.setEv_chk (s : State) (e : Event) : (s.setEv e).chk = s.chk := rfl
@[simp] theorem State.setEv_len (s : State) (e : Event) : (s.setEv e).len = s.len := rfl
@[simp] theorem State.setEv_pos (s : State) (e : Event) : (s.setEv e).pos = s.pos := rfl
@[simp] theorem State.setEv_crc (s : State) (e : Event) : (s.setEv e).crc = s.crc := rfl
@[simp] theorem State.setEv_lastT (s : State) (e : Event) : (s.setEv e).lastT = s.lastT := rfl
@[simp] theorem State.setEv_tmo (s : State) (e : Event) : (s.setEv e).tmo = s.tmo := rfl
@[simp] theorem State.setEv_buf (s : State) (e : Event) : (s.setEv e).buf = s.buf := rfl
@[simp] theorem State.setEv_inputs (s : State) (e : Event) : (s.setEv e).inputs = s.inputs := rfl
@[simp] theorem State.setEv_out (s : State) (e : Event) : (s.setEv e).out = { s.out with ev := e } := rfl

/-! ### `setRdata`: the output `rdata` -/

@[simp] theorem State.setRdata_params (s : State) (v : Word32) : (s.setRdata v).params = s.params := rfl
@[simp] theorem State.setRdata_st (s : State) (v : Word32) : (s.setRdata v).st = s.st := rfl
@[simp] theorem State.setRdata_chk (s : State) (v : Word32) : (s.setRdata v).chk = s.chk := rfl
@[simp] theorem State.setRdata_len (s : State) (v : Word32) : (s.setRdata v).len = s.len := rfl
@[simp] theorem State.setRdata_pos (s : State) (v : Word32) : (s.setRdata v).pos = s.pos := rfl
@[simp] theorem State.setRdata_crc (s : State) (v : Word32) : (s.setRdata v).crc = s.crc := rfl
@[simp] theorem State.setRdata_lastT (s : State) (v : Word32) : (s.setRdata v).lastT = s.lastT := rfl
@[simp] theorem State.setRdata_tmo (s : State) (v : Word32) : (s.setRdata v).tmo = s.tmo := rfl
@[simp] theorem State.setRdata_buf (s : State) (v : Word32) : (s.setRdata v).buf = s.buf := rfl
@[simp] theorem State.setRdata_inputs (s : State) (v : Word32) : (s.setRdata v).inputs = s.inputs := rfl
@[simp] theorem State.setRdata_out (s : State) (v : Word32) : (s.setRdata v).out = { s.out with rdata := v } := rfl

/-! ### `resetFrame`: the frame reset -/

@[simp] theorem State.resetFrame_params (s : State) : (s.resetFrame).params = s.params := rfl
@[simp] theorem State.resetFrame_st (s : State) : (s.resetFrame).st = .awaitStart := rfl
@[simp] theorem State.resetFrame_chk (s : State) : (s.resetFrame).chk = s.chk := rfl
@[simp] theorem State.resetFrame_len (s : State) : (s.resetFrame).len = s.len := rfl
@[simp] theorem State.resetFrame_pos (s : State) : (s.resetFrame).pos = 0x00#8 := rfl
@[simp] theorem State.resetFrame_crc (s : State) : (s.resetFrame).crc = 0x00#8 := rfl
@[simp] theorem State.resetFrame_lastT (s : State) : (s.resetFrame).lastT = s.lastT := rfl
@[simp] theorem State.resetFrame_tmo (s : State) : (s.resetFrame).tmo = s.tmo := rfl
@[simp] theorem State.resetFrame_buf (s : State) : (s.resetFrame).buf = s.buf := rfl
@[simp] theorem State.resetFrame_inputs (s : State) : (s.resetFrame).inputs = s.inputs := rfl
@[simp] theorem State.resetFrame_out (s : State) : (s.resetFrame).out = s.out := rfl

/-! ### `raiseFrameError`: error entry -/

@[simp] theorem State.raiseFrameError_params (s : State) (k : ErrKind) : (s.raiseFrameError k).params = s.params := rfl
@[simp] theorem State.raiseFrameError_st (s : State) (k : ErrKind) : (s.raiseFrameError k).st = .awaitStart := rfl
@[simp] theorem State.raiseFrameError_chk (s : State) (k : ErrKind) : (s.raiseFrameError k).chk = s.chk := rfl
@[simp] theorem State.raiseFrameError_len (s : State) (k : ErrKind) : (s.raiseFrameError k).len = s.len := rfl
@[simp] theorem State.raiseFrameError_pos (s : State) (k : ErrKind) : (s.raiseFrameError k).pos = 0x00#8 := rfl
@[simp] theorem State.raiseFrameError_crc (s : State) (k : ErrKind) : (s.raiseFrameError k).crc = 0x00#8 := rfl
@[simp] theorem State.raiseFrameError_lastT (s : State) (k : ErrKind) : (s.raiseFrameError k).lastT = s.lastT := rfl
@[simp] theorem State.raiseFrameError_tmo (s : State) (k : ErrKind) : (s.raiseFrameError k).tmo = s.tmo := rfl
@[simp] theorem State.raiseFrameError_buf (s : State) (k : ErrKind) : (s.raiseFrameError k).buf = s.buf := rfl
@[simp] theorem State.raiseFrameError_inputs (s : State) (k : ErrKind) : (s.raiseFrameError k).inputs = s.inputs := rfl
@[simp] theorem State.raiseFrameError_out (s : State) (k : ErrKind) : (s.raiseFrameError k).out = { s.out with ev := .error k } := rfl

/-! ### `deliverFrame`: a frame delivered -/

@[simp] theorem State.deliverFrame_params (s : State) (l : Byte) : (s.deliverFrame l).params = s.params := rfl
@[simp] theorem State.deliverFrame_st (s : State) (l : Byte) : (s.deliverFrame l).st = .awaitStart := rfl
@[simp] theorem State.deliverFrame_chk (s : State) (l : Byte) : (s.deliverFrame l).chk = s.chk := rfl
@[simp] theorem State.deliverFrame_len (s : State) (l : Byte) : (s.deliverFrame l).len = s.len := rfl
@[simp] theorem State.deliverFrame_pos (s : State) (l : Byte) : (s.deliverFrame l).pos = 0x00#8 := rfl
@[simp] theorem State.deliverFrame_crc (s : State) (l : Byte) : (s.deliverFrame l).crc = 0x00#8 := rfl
@[simp] theorem State.deliverFrame_lastT (s : State) (l : Byte) : (s.deliverFrame l).lastT = s.lastT := rfl
@[simp] theorem State.deliverFrame_tmo (s : State) (l : Byte) : (s.deliverFrame l).tmo = s.tmo := rfl
@[simp] theorem State.deliverFrame_buf (s : State) (l : Byte) : (s.deliverFrame l).buf = s.buf := rfl
@[simp] theorem State.deliverFrame_inputs (s : State) (l : Byte) : (s.deliverFrame l).inputs = s.inputs := rfl
@[simp] theorem State.deliverFrame_out (s : State) (l : Byte) : (s.deliverFrame l).out = { s.out with ev := .ready l } := rfl

/-! ### `appended`: the append -/

@[simp] theorem State.appended_params (s : State) (b : Byte) : (s.appended b).params = s.params := rfl
@[simp] theorem State.appended_st (s : State) (b : Byte) : (s.appended b).st = if s.pos + 1#8 = s.len then .awaitEnd else .inData := rfl
@[simp] theorem State.appended_chk (s : State) (b : Byte) : (s.appended b).chk = s.chk := rfl
@[simp] theorem State.appended_len (s : State) (b : Byte) : (s.appended b).len = s.len := rfl
@[simp] theorem State.appended_pos (s : State) (b : Byte) : (s.appended b).pos = s.pos + 1#8 := rfl
@[simp] theorem State.appended_crc (s : State) (b : Byte) : (s.appended b).crc = crc8Step s.crc b := rfl
@[simp] theorem State.appended_lastT (s : State) (b : Byte) : (s.appended b).lastT = s.lastT := rfl
@[simp] theorem State.appended_tmo (s : State) (b : Byte) : (s.appended b).tmo = s.tmo := rfl
@[simp] theorem State.appended_buf (s : State) (b : Byte) : (s.appended b).buf = s.buf.store s.pos.toNat b := rfl
@[simp] theorem State.appended_inputs (s : State) (b : Byte) : (s.appended b).inputs = s.inputs := rfl
@[simp] theorem State.appended_out (s : State) (b : Byte) : (s.appended b).out = s.out := rfl

/-! ### `started`: START_RX from IDLE -/

@[simp] theorem State.started_params (s : State) : (s.started).params = s.params := rfl
@[simp] theorem State.started_st (s : State) : (s.started).st = .awaitStart := rfl
@[simp] theorem State.started_chk (s : State) : (s.started).chk = s.chk := rfl
@[simp] theorem State.started_len (s : State) : (s.started).len = s.len := rfl
@[simp] theorem State.started_pos (s : State) : (s.started).pos = 0x00#8 := rfl
@[simp] theorem State.started_crc (s : State) : (s.started).crc = 0x00#8 := rfl
@[simp] theorem State.started_lastT (s : State) : (s.started).lastT = s.lastT := rfl
@[simp] theorem State.started_tmo (s : State) : (s.started).tmo = s.tmo := rfl
@[simp] theorem State.started_buf (s : State) : (s.started).buf = s.buf := rfl
@[simp] theorem State.started_inputs (s : State) : (s.started).inputs = s.inputs := rfl
@[simp] theorem State.started_out (s : State) : (s.started).out = s.out := rfl

/-! ### `present`: an operation presented -/

@[simp] theorem State.present_params (s : State) (x : PortInput) : (s.present x).params = s.params := rfl
@[simp] theorem State.present_st (s : State) (x : PortInput) : (s.present x).st = s.st := rfl
@[simp] theorem State.present_chk (s : State) (x : PortInput) : (s.present x).chk = s.chk := rfl
@[simp] theorem State.present_len (s : State) (x : PortInput) : (s.present x).len = s.len := rfl
@[simp] theorem State.present_pos (s : State) (x : PortInput) : (s.present x).pos = s.pos := rfl
@[simp] theorem State.present_crc (s : State) (x : PortInput) : (s.present x).crc = s.crc := rfl
@[simp] theorem State.present_lastT (s : State) (x : PortInput) : (s.present x).lastT = s.lastT := rfl
@[simp] theorem State.present_tmo (s : State) (x : PortInput) : (s.present x).tmo = s.tmo := rfl
@[simp] theorem State.present_buf (s : State) (x : PortInput) : (s.present x).buf = s.buf := rfl
@[simp] theorem State.present_inputs (s : State) (x : PortInput) : (s.present x).inputs = [x] := rfl
@[simp] theorem State.present_out (s : State) (x : PortInput) : (s.present x).out = s.out := rfl

/-! ### `tmoCheck`: the timeout check -/

@[simp] theorem State.tmoCheck_params (s : State) (now : Nat) : (s.tmoCheck now).params = s.params := by
  unfold State.tmoCheck; split <;> rfl
@[simp] theorem State.tmoCheck_st (s : State) (now : Nat) : (s.tmoCheck now).st = if timedOut s now then .awaitStart else s.st := by
  unfold State.tmoCheck; split <;> rfl
@[simp] theorem State.tmoCheck_chk (s : State) (now : Nat) : (s.tmoCheck now).chk = s.chk := by
  unfold State.tmoCheck; split <;> rfl
@[simp] theorem State.tmoCheck_len (s : State) (now : Nat) : (s.tmoCheck now).len = s.len := by
  unfold State.tmoCheck; split <;> rfl
@[simp] theorem State.tmoCheck_pos (s : State) (now : Nat) : (s.tmoCheck now).pos = if timedOut s now then 0x00#8 else s.pos := by
  unfold State.tmoCheck; split <;> rfl
@[simp] theorem State.tmoCheck_crc (s : State) (now : Nat) : (s.tmoCheck now).crc = if timedOut s now then 0x00#8 else s.crc := by
  unfold State.tmoCheck; split <;> rfl
@[simp] theorem State.tmoCheck_lastT (s : State) (now : Nat) : (s.tmoCheck now).lastT = s.lastT := by
  unfold State.tmoCheck; split <;> rfl
@[simp] theorem State.tmoCheck_tmo (s : State) (now : Nat) : (s.tmoCheck now).tmo = s.tmo := by
  unfold State.tmoCheck; split <;> rfl
@[simp] theorem State.tmoCheck_buf (s : State) (now : Nat) : (s.tmoCheck now).buf = s.buf := by
  unfold State.tmoCheck; split <;> rfl
@[simp] theorem State.tmoCheck_inputs (s : State) (now : Nat) : (s.tmoCheck now).inputs = s.inputs := by
  unfold State.tmoCheck; split <;> rfl
@[simp] theorem State.tmoCheck_out (s : State) (now : Nat) : (s.tmoCheck now).out = if timedOut s now then { s.out with ev := .error .timeout } else s.out := by
  unfold State.tmoCheck; split <;> rfl

/-! ### `takeByte`: a byte taken -/

/-- The timeout test reads no output. -/
theorem timedOut_acc (s : State) (a : Bool) (now : Nat) : timedOut (s.clearOut.setAcc a) now = timedOut s now := rfl

/-- The timeout test reads no output. -/
@[simp] theorem timedOut_clearOut (s : State) (now : Nat) : timedOut s.clearOut now = timedOut s now := rfl
@[simp] theorem State.takeByte_params (s : State) (now : Nat) : (s.takeByte now).params = s.params := by
  simp [State.takeByte]
@[simp] theorem State.takeByte_st (s : State) (now : Nat) : (s.takeByte now).st = if timedOut s now then .awaitStart else s.st := by
  cases h : timedOut s now <;> simp [State.takeByte, State.tmoCheck, timedOut_acc, h]
@[simp] theorem State.takeByte_chk (s : State) (now : Nat) : (s.takeByte now).chk = s.chk := by
  simp [State.takeByte]
@[simp] theorem State.takeByte_len (s : State) (now : Nat) : (s.takeByte now).len = s.len := by
  simp [State.takeByte]
@[simp] theorem State.takeByte_pos (s : State) (now : Nat) : (s.takeByte now).pos = if timedOut s now then 0x00#8 else s.pos := by
  cases h : timedOut s now <;> simp [State.takeByte, State.tmoCheck, timedOut_acc, h]
@[simp] theorem State.takeByte_crc (s : State) (now : Nat) : (s.takeByte now).crc = if timedOut s now then 0x00#8 else s.crc := by
  cases h : timedOut s now <;> simp [State.takeByte, State.tmoCheck, timedOut_acc, h]
@[simp] theorem State.takeByte_lastT (s : State) (now : Nat) : (s.takeByte now).lastT = now := rfl
@[simp] theorem State.takeByte_tmo (s : State) (now : Nat) : (s.takeByte now).tmo = s.tmo := by
  simp [State.takeByte]
@[simp] theorem State.takeByte_buf (s : State) (now : Nat) : (s.takeByte now).buf = s.buf := by
  simp [State.takeByte]
@[simp] theorem State.takeByte_inputs (s : State) (now : Nat) : (s.takeByte now).inputs = s.inputs := by
  simp [State.takeByte]
@[simp] theorem State.takeByte_out (s : State) (now : Nat) : (s.takeByte now).out = { acc := true, ev := if timedOut s now then .error .timeout else .none, rdata := 0#32 } := by
  cases h : timedOut s now <;> simp [State.takeByte, State.tmoCheck, timedOut_acc, h, Output.clear]

/-! ### The power-on state (10_state.md R31) -/

@[simp] theorem State.powerOn_params (p : Params) : (State.powerOn p).params = p := rfl
@[simp] theorem State.powerOn_st (p : Params) : (State.powerOn p).st = .idle := rfl
@[simp] theorem State.powerOn_chk (p : Params) : (State.powerOn p).chk = 0x00#8 := rfl
@[simp] theorem State.powerOn_len (p : Params) : (State.powerOn p).len = 0x00#8 := rfl
@[simp] theorem State.powerOn_pos (p : Params) : (State.powerOn p).pos = 0x00#8 := rfl
@[simp] theorem State.powerOn_crc (p : Params) : (State.powerOn p).crc = 0x00#8 := rfl
@[simp] theorem State.powerOn_lastT (p : Params) : (State.powerOn p).lastT = 0 := rfl
@[simp] theorem State.powerOn_tmo (p : Params) : (State.powerOn p).tmo = p.timeoutDefault := rfl
@[simp] theorem State.powerOn_buf (p : Params) : (State.powerOn p).buf = [] := rfl
@[simp] theorem State.powerOn_inputs (p : Params) : (State.powerOn p).inputs = [] := rfl
@[simp] theorem State.powerOn_out (p : Params) : (State.powerOn p).out = Output.clear := rfl

end Sys2Proof.Machine
end

