-- ==== Sys2Proof/Laws/Ops.lean ====
section
/-! SUPPORT. One lemma per shared operation that says all it can do, and the byte stage state by state, so that proofs about
instructions do not unfold them. -/

namespace Sys2Proof.Machine

/-! ## Shared operations -/

theorem append_next {b : Byte} {s : State} (h : s.pos.toNat < Config.bufCap) : append b s = .next (s.appended b) :=
  if_pos h

theorem append_fault {b : Byte} {s : State} (h : ¬ s.pos.toNat < Config.bufCap) :
    append b s = .fault (.noSuchCell s.pos.toNat) := if_neg h

/-- Everything an append can do: it stores a byte, or its write position names no cell. -/
theorem append_cases (b : Byte) (s : State) :
    (s.pos.toNat < Config.bufCap ∧ append b s = .next (s.appended b)) ∨
      (Config.bufCap ≤ s.pos.toNat ∧ append b s = .fault (.noSuchCell s.pos.toNat)) := by
  by_cases h : s.pos.toNat < Config.bufCap
  · exact .inl ⟨h, append_next h⟩
  · exact .inr ⟨Nat.le_of_not_lt h, append_fault h⟩

/-- A port operation that answers a next state answers the state it computes, and `st` is one of the seven. -/
theorem inKnownState_next {s t u : State} (h : inKnownState s t = .next u) : s.st ≠ .unused7 ∧ u = t := by
  unfold inKnownState at h
  cases hs : s.st <;> simp_all

theorem inKnownState_of_known {s : State} (t : State) (h : s.st ≠ .unused7) : inKnownState s t = .next t := by
  unfold inKnownState
  cases hs : s.st <;> simp_all

theorem inKnownState_unused7 {s : State} (t : State) (h : s.st = .unused7) : inKnownState s t = .refused .badState := by
  unfold inKnownState
  rw [h]

/-- The timeout check raises TIMEOUT or does nothing. -/
theorem tmoCheck_cases (s : State) (now : Nat) :
    (timedOut s now = true ∧ s.tmoCheck now = s.raiseFrameError .timeout) ∨
      (timedOut s now = false ∧ s.tmoCheck now = s) := by
  unfold State.tmoCheck
  cases h : timedOut s now <;> simp

/-- No timeout unless a frame is in progress (43_port_operations.md R115). -/
theorem timedOut_not_inProgress {s : State} (now : Nat) (h : inProgress s = false) : timedOut s now = false := by
  simp [timedOut, h]

/-- A timeout comes first: the byte stage runs from AWAIT_START with the event set (43_port_operations.md R104). -/
theorem takeByte_timedOut {s : State} {now : Nat} (h : timedOut s now = true) :
    s.takeByte now = { s with
      st := .awaitStart, pos := 0x00#8, crc := 0x00#8, lastT := now
      out := { acc := true, ev := .error .timeout, rdata := 0#32 } } := by
  simp only [State.takeByte, State.tmoCheck, timedOut_acc, h, if_true]
  rfl

/-- No timeout: the byte stage runs in the state's own parse state. -/
theorem takeByte_inTime {s : State} {now : Nat} (h : timedOut s now = false) :
    s.takeByte now = { s with lastT := now, out := { acc := true, ev := .none, rdata := 0#32 } } := by
  simp only [State.takeByte, State.tmoCheck, timedOut_acc, h]
  rfl

/-- The timeout test as the rule writes it (43_port_operations.md R103). -/
theorem timedOut_iff (s : State) (now : Nat) :
    timedOut s now = true ↔ inProgress s = true ∧ s.tmo < elapsed s.params now s.lastT := by
  simp [timedOut]

theorem timedOut_false_iff (s : State) (now : Nat) :
    timedOut s now = false ↔ ¬ (inProgress s = true ∧ s.tmo < elapsed s.params now s.lastT) := by
  rw [← timedOut_iff, Bool.not_eq_true]

@[simp] theorem timeOperand_eq (p : Params) (t : Nat) : timeOperand p t = t % 2 ^ p.tsW := rfl

theorem stOfCode_stCode (x : RxState) : stOfCode (stCode x) = x := by cases x <;> rfl

theorem stCode_stOfCode (c : BitVec 3) : stCode (stOfCode c) = c := by revert c; decide

/-! ## The byte stage, state by state (42_receive_fsm.md R83 to R97) -/

theorem rxByte_idle {s : State} (b : Byte) (h : s.st = .idle) : rxByte s b = execRxIdle b s := by
  simp [rxByte, rxKey, h, stCode, decodeKey_idle, performRow]

theorem rxByte_awaitStart {s : State} (b : Byte) (h : s.st = .awaitStart) :
    rxByte s b = if b = Config.startMark then execRxStart s else execRxSkip b s := by
  simp only [rxByte, rxKey, h, stCode, decodeKey_awaitStart]
  split <;> rfl

theorem rxByte_awaitChecksum {s : State} (b : Byte) (h : s.st = .awaitChecksum) : rxByte s b = execRxChk b s := by
  simp [rxByte, rxKey, h, stCode, decodeKey_awaitChecksum, performRow]

theorem rxByte_awaitLength {s : State} (b : Byte) (h : s.st = .awaitLength) :
    rxByte s b = if b = 0x00#8 then execRxLen0 s else if Config.bufCap < b.toNat then execRxLenovf b s
      else execRxLen b s := by
  simp only [rxByte, rxKey, h, stCode, decodeKey_awaitLength]
  split
  · rfl
  · split <;> rfl

theorem rxByte_inData {s : State} (b : Byte) (h : s.st = .inData) :
    rxByte s b = if b = Config.esc then execRxEsc s else if b = Config.endMark then execRxDend s
      else if b = Config.startMark then execRxDstart s else execRxData b s := by
  simp only [rxByte, rxKey, h, stCode, decodeKey_inData]
  split
  · rfl
  · split
    · rfl
    · split <;> rfl

theorem rxByte_inEscape {s : State} (b : Byte) (h : s.st = .inEscape) : rxByte s b = execRxEdata b s := by
  simp [rxByte, rxKey, h, stCode, decodeKey_inEscape, performRow]

theorem rxByte_awaitEnd {s : State} (b : Byte) (h : s.st = .awaitEnd) :
    rxByte s b = if b = Config.endMark then execRxEnd s else execRxNoend b s := by
  simp only [rxByte, rxKey, h, stCode, decodeKey_awaitEnd]
  split <;> rfl

theorem rxByte_unused7 {s : State} (b : Byte) (h : s.st = .unused7) : rxByte s b = .refused .badState := by
  simp [rxByte, rxKey, h, stCode, decodeKey_unused7, performRow, execRxBadstate]

/-! ## FEED (43_port_operations.md R104) -/

theorem execFeed_idle {s : State} (b : Byte) (now : Nat) (h : s.st = .idle) : execFeed b now s = .next s.clearOut := by
  unfold execFeed
  rw [h]
  rfl

theorem execFeed_unused7 {s : State} (b : Byte) (now : Nat) (h : s.st = .unused7) :
    execFeed b now s = .refused .badState := by
  unfold execFeed
  rw [h]

theorem execFeed_taken {s : State} (b : Byte) (now : Nat) (h : s.st ≠ .idle) (h7 : s.st ≠ .unused7) :
    execFeed b now s = rxByte (s.takeByte (timeOperand s.params now)) b := by
  unfold execFeed
  cases hs : s.st <;> simp_all

/-! ## The step -/

theorem step_nil {s : State} (h : s.inputs = []) : step s = exec .nop s := by
  unfold step
  rw [h]

theorem step_cons {s : State} {x : PortInput} {xs : List PortInput} (h : s.inputs = x :: xs) :
    step s = exec (decodeInput x) { s with inputs := xs } := by
  unfold step
  rw [h]

@[simp] theorem step_present (s : State) (x : PortInput) :
    step (s.present x) = exec (decodeInput x) { s with inputs := [] } := rfl

end Sys2Proof.Machine
end

