-- ==== Sys2Proof/Laws/Inversion.lean ====
section
/-! SUPPORT. What a step can do, said once: the byte stage's next states row by row (`RowEffect`), every operation's next
states (`PortEffect`), and what a step with a presented input is. Proofs about all operations take cases on these. -/

namespace Sys2Proof.Machine

/-- The next states of the byte stage on byte `b` in state `u`, one case per row of 30_encoding.md R56 that has one, with the
condition that selects the row. -/
inductive RowEffect (u : State) (b : Byte) : State → Prop where
  | idle (h : u.st = .idle) : RowEffect u b (u.setAcc false)
  | start (h : u.st = .awaitStart) (hb : b = Config.startMark) : RowEffect u b { u with st := .awaitChecksum }
  | skip (h : u.st = .awaitStart) (hb : b ≠ Config.startMark) : RowEffect u b u
  | chk (h : u.st = .awaitChecksum) : RowEffect u b { u with chk := b, st := .awaitLength }
  | len0 (h : u.st = .awaitLength) (hb : b = 0x00#8) :
      RowEffect u b (State.raiseFrameError { u with len := 0x00#8 } .length)
  | lenovf (h : u.st = .awaitLength) (hb : 251 < b.toNat) :
      RowEffect u b (State.raiseFrameError { u with len := b } .overflow)
  | len (h : u.st = .awaitLength) (h0 : b ≠ 0x00#8) (hb : b.toNat ≤ 251) :
      RowEffect u b { u with len := b, pos := 0x00#8, crc := 0x00#8, st := .inData }
  | esc (h : u.st = .inData) (hb : b = Config.esc) : RowEffect u b { u with st := .inEscape }
  | mark (h : u.st = .inData) (hb : b = Config.endMark ∨ b = Config.startMark) :
      RowEffect u b (u.raiseFrameError .length)
  | data (h : u.st = .inData) (hb : Config.isReserved b = false) (hp : u.pos.toNat < 251) : RowEffect u b (u.appended b)
  | edata (h : u.st = .inEscape) (hp : u.pos.toNat < 251) : RowEffect u b (u.appended b)
  | ready (h : u.st = .awaitEnd) (hb : b = Config.endMark) (hc : u.crc = u.chk) : RowEffect u b (u.deliverFrame u.len)
  | crcError (h : u.st = .awaitEnd) (hb : b = Config.endMark) (hc : u.crc ≠ u.chk) :
      RowEffect u b (u.raiseFrameError .crc)
  | noend (h : u.st = .awaitEnd) (hb : b ≠ Config.endMark) : RowEffect u b (u.raiseFrameError .frame)

/-- Every next state of the byte stage is one of the rows'. -/
theorem rxByte_effect {u t : State} {b : Byte} (h : rxByte u b = .next t) : RowEffect u b t := by
  cases hs : u.st with
  | idle =>
    rw [rxByte_idle b hs] at h
    cases h
    exact .idle hs
  | awaitStart =>
    rw [rxByte_awaitStart b hs] at h
    split at h
    · cases h
      exact .start hs ‹_›
    · cases h
      exact .skip hs ‹_›
  | awaitChecksum =>
    rw [rxByte_awaitChecksum b hs] at h
    cases h
    exact .chk hs
  | awaitLength =>
    rw [rxByte_awaitLength b hs] at h
    split at h
    · cases h
      exact .len0 hs ‹_›
    · split at h
      · cases h
        exact .lenovf hs ‹_›
      · cases h
        exact .len hs ‹_› (Nat.le_of_not_lt ‹_›)
  | inData =>
    rw [rxByte_inData b hs] at h
    split at h
    · cases h
      exact .esc hs ‹_›
    · split at h
      · cases h
        exact .mark hs (.inl ‹_›)
      · split at h
        · cases h
          exact .mark hs (.inr ‹_›)
        · rename_i h1 h2 h3
          rcases append_cases b u with ⟨hp, ha⟩ | ⟨_, ha⟩
          · rw [execRxData, ha] at h
            cases h
            exact .data hs ((Config.isReserved_false_iff b).2 ⟨h3, h2, h1⟩) hp
          · rw [execRxData, ha] at h
            cases h
  | inEscape =>
    rw [rxByte_inEscape b hs] at h
    rcases append_cases b u with ⟨hp, ha⟩ | ⟨_, ha⟩
    · rw [execRxEdata, ha] at h
      cases h
      exact .edata hs hp
    · rw [execRxEdata, ha] at h
      cases h
  | awaitEnd =>
    rw [rxByte_awaitEnd b hs] at h
    split at h
    · unfold execRxEnd at h
      split at h
      · cases h
        exact .ready hs ‹_› (by simpa [crcOk] using ‹crcOk u = true›)
      · cases h
        exact .crcError hs ‹_› (by simpa [crcOk] using ‹¬crcOk u = true›)
    · cases h
      exact .noend hs ‹_›
  | unused7 =>
    rw [rxByte_unused7 b hs] at h
    cases h

/-- The byte stage completes outside the unused state code, where an append's write position names a cell. -/
theorem rxByte_completes {u : State} (b : Byte) (h7 : u.st ≠ .unused7)
    (hp : u.st = .inData ∨ u.st = .inEscape → u.pos.toNat < 251) : ∃ t, rxByte u b = .next t := by
  cases hs : u.st with
  | idle => exact ⟨_, rxByte_idle b hs⟩
  | awaitStart =>
    rw [rxByte_awaitStart b hs]
    split <;> exact ⟨_, rfl⟩
  | awaitChecksum => exact ⟨_, rxByte_awaitChecksum b hs⟩
  | awaitLength =>
    rw [rxByte_awaitLength b hs]
    split
    · exact ⟨_, rfl⟩
    · split <;> exact ⟨_, rfl⟩
  | inData =>
    rw [rxByte_inData b hs]
    have ha : execRxData b u = _ := append_next (hp (.inl hs))
    split
    · exact ⟨_, rfl⟩
    · split
      · exact ⟨_, rfl⟩
      · split
        · exact ⟨_, rfl⟩
        · exact ⟨_, ha⟩
  | inEscape => exact ⟨_, (rxByte_inEscape b hs).trans (append_next (hp (.inr hs)))⟩
  | awaitEnd =>
    rw [rxByte_awaitEnd b hs]
    split
    · unfold execRxEnd
      split <;> exact ⟨_, rfl⟩
    · exact ⟨_, rfl⟩
  | unused7 => exact absurd hs h7

/-- The next states of the port operations and of reset, one case per operation and outcome. -/
inductive PortEffect (s : State) : Instr → State → Prop where
  | nop (h : s.st ≠ .unused7) : PortEffect s .nop s.clearOut
  | feedIdle (b : Byte) (now : Nat) (h : s.st = .idle) : PortEffect s (.feed b now) s.clearOut
  | feedTimeout (b : Byte) (now : Nat) (h : timedOut s (now % 2 ^ s.params.tsW) = true) :
      PortEffect s (.feed b now) { s with
        st := if b = Config.startMark then .awaitChecksum else .awaitStart
        pos := 0x00#8, crc := 0x00#8, lastT := now % 2 ^ s.params.tsW
        out := { acc := true, ev := .error .timeout, rdata := 0#32 } }
  | feedRow (b : Byte) (now : Nat) (t : State) (h1 : s.st ≠ .idle) (h7 : s.st ≠ .unused7)
      (h : timedOut s (now % 2 ^ s.params.tsW) = false)
      (hr : RowEffect { s with
        lastT := now % 2 ^ s.params.tsW, out := { acc := true, ev := .none, rdata := 0#32 } } b t) :
      PortEffect s (.feed b now) t
  | tickTimeout (now : Nat) (h : timedOut s (now % 2 ^ s.params.tsW) = true) :
      PortEffect s (.tick now) (s.clearOut.raiseFrameError .timeout)
  | tick (now : Nat) (h7 : s.st ≠ .unused7) (h : timedOut s (now % 2 ^ s.params.tsW) = false) :
      PortEffect s (.tick now) s.clearOut
  | startIdle (h : s.st = .idle) : PortEffect s .startRx s.clearOut.started
  | startRx (h7 : s.st ≠ .unused7) (h : s.st ≠ .idle) : PortEffect s .startRx s.clearOut
  | stopRx (h7 : s.st ≠ .unused7) :
      PortEffect s .stopRx { s.clearOut with st := .idle, pos := 0x00#8, crc := 0x00#8 }
  | setTimeout (v : Nat) (h7 : s.st ≠ .unused7) :
      PortEffect s (.setTimeout v) { s.clearOut with tmo := v % 2 ^ s.params.tsW }
  | readBuf (i : Byte) (h7 : s.st ≠ .unused7) :
      PortEffect s (.readBuf i) (s.clearOut.setRdata (zext32 (s.buf.read i.toNat)))
  | readStatus (h7 : s.st ≠ .unused7) : PortEffect s .readStatus (s.clearOut.setRdata (statusWord s))
  | reset : PortEffect s .reset { s.clearOut with
      st := .idle, chk := 0x00#8, len := 0x00#8, pos := 0x00#8, crc := 0x00#8, lastT := 0
      tmo := s.params.timeoutDefault }

/-- Every next state of an operation is one of the cases. -/
theorem exec_effect {s t : State} {i : Instr} (hi : i.isRxRow = false) (h : exec i s = .next t) : PortEffect s i t := by
  cases i with
  | nop =>
    obtain ⟨h7, rfl⟩ := inKnownState_next h
    exact .nop h7
  | feed b now =>
    change execFeed b now s = _ at h
    by_cases h1 : s.st = .idle
    · rw [execFeed_idle b now h1] at h
      cases h
      exact .feedIdle b now h1
    · by_cases h7 : s.st = .unused7
      · rw [execFeed_unused7 b now h7] at h
        cases h
      · rw [execFeed_taken b now h1 h7] at h
        cases ht : timedOut s (now % 2 ^ s.params.tsW) with
        | true =>
          rw [timeOperand_eq, takeByte_timedOut ht, rxByte_awaitStart b rfl] at h
          have hf := PortEffect.feedTimeout b now ht
          by_cases hb : b = Config.startMark
          · rw [if_pos hb] at h hf
            cases h
            exact hf
          · rw [if_neg hb] at h hf
            cases h
            exact hf
        | false =>
          rw [timeOperand_eq, takeByte_inTime ht] at h
          exact .feedRow b now t h1 h7 ht (rxByte_effect h)
  | tick now =>
    obtain ⟨h7, rfl⟩ := inKnownState_next h
    cases ht : timedOut s (now % 2 ^ s.params.tsW) with
    | true => simpa [State.tmoCheck, ht] using PortEffect.tickTimeout now ht
    | false => simpa [State.tmoCheck, ht] using PortEffect.tick now h7 ht
  | startRx =>
    obtain ⟨h7, rfl⟩ := inKnownState_next h
    split
    · exact .startIdle ‹_›
    · exact .startRx h7 ‹_›
  | stopRx =>
    obtain ⟨h7, rfl⟩ := inKnownState_next h
    exact .stopRx h7
  | setTimeout v =>
    obtain ⟨h7, rfl⟩ := inKnownState_next h
    exact .setTimeout v h7
  | readBuf i =>
    obtain ⟨h7, rfl⟩ := inKnownState_next h
    exact .readBuf i h7
  | readStatus =>
    obtain ⟨h7, rfl⟩ := inKnownState_next h
    exact .readStatus h7
  | reset =>
    cases h
    exact .reset
  | rxIdle _ => cases hi
  | rxStart => cases hi
  | rxSkip _ => cases hi
  | rxChk _ => cases hi
  | rxLen0 => cases hi
  | rxLenovf _ => cases hi
  | rxLen _ => cases hi
  | rxEsc => cases hi
  | rxDend => cases hi
  | rxDstart => cases hi
  | rxData _ => cases hi
  | rxEdata _ => cases hi
  | rxEnd => cases hi
  | rxNoend _ => cases hi
  | rxBadstate _ => cases hi

/-- What stands at the ports is never a row of the byte stage (30_encoding.md R57, R58). -/
theorem decodeInput_isRxRow (x : PortInput) : (decodeInput x).isRxRow = false := by
  unfold decodeInput decodeOp
  split
  · rfl
  · repeat' (first | rfl | split)

/-- Every next state of a step is an operation's, on the state without the input it took. -/
theorem step_effect {s t : State} (h : step s = .next t) :
    (s.inputs = [] ∧ PortEffect s .nop t) ∨
      ∃ x xs, s.inputs = x :: xs ∧ PortEffect { s with inputs := xs } (decodeInput x) t := by
  cases hs : s.inputs with
  | nil =>
    rw [step_nil hs] at h
    exact .inl ⟨rfl, exec_effect rfl h⟩
  | cons x xs =>
    rw [step_cons hs] at h
    exact .inr ⟨x, xs, rfl, exec_effect (decodeInput_isRxRow x) h⟩

/-- A presented FEED, read back from what it decodes to. -/
theorem decodeInput_eq_feed {x : PortInput} {b : Byte} {now : Nat} (h : decodeInput x = .feed b now) :
    x.rst = false ∧ wordOp x.w = 1#3 ∧ wordArg x.w = b ∧ x.t = now := by
  unfold decodeInput decodeOp at h
  repeat' split at h
  all_goals simp_all

/-- A step that appends nothing leaves the whole buffer as it was. -/
theorem buf_of_not_appends {s t : State} {x : PortInput} (h : step (s.present x) = .next t)
    (ha : Transition.appends ⟨s, x, t⟩ = false) : t.buf = s.buf := by
  rcases step_effect h with ⟨h, _⟩ | ⟨y, ys, h, he⟩
  · cases h
  · cases h
    generalize hd : decodeInput x = i at he
    cases he <;> try rfl
    rename_i b now h1 h7 ht hr
    obtain ⟨e1, e2, e3, e4⟩ := decodeInput_eq_feed hd
    cases hr <;> try rfl
    all_goals simp_all [Transition.appends, timeOperand, State.present, timedOut, inProgress]

end Sys2Proof.Machine
end

