-- ==== Sys2Proof/Laws/PerInstr.lean ====
section
/-! SUPPORT. Statements about every instruction as syntax, one lemma per constructor. The family `WordSpace`: a byte-stage
row is encoded as a key and every other instruction as what stands at the ports (30_encoding.md R56, R57, R60). -/

namespace Sys2Proof.Laws.WordSpace

open Sys2Proof

/-- The encoding of a row is a key, and only a row's is. -/
def Statement (i : Instr) : Prop := (∃ k, encode i = .key k) ↔ i.isRxRow = true

theorem rxIdle (b : Byte) : Statement (.rxIdle b) := ⟨fun _ => rfl, fun _ => ⟨_, rfl⟩⟩

theorem rxStart : Statement .rxStart := ⟨fun _ => rfl, fun _ => ⟨_, rfl⟩⟩

theorem rxSkip (b : Byte) : Statement (.rxSkip b) := ⟨fun _ => rfl, fun _ => ⟨_, rfl⟩⟩

theorem rxChk (b : Byte) : Statement (.rxChk b) := ⟨fun _ => rfl, fun _ => ⟨_, rfl⟩⟩

theorem rxLen0 : Statement .rxLen0 := ⟨fun _ => rfl, fun _ => ⟨_, rfl⟩⟩

theorem rxLenovf (b : Byte) : Statement (.rxLenovf b) := ⟨fun _ => rfl, fun _ => ⟨_, rfl⟩⟩

theorem rxLen (b : Byte) : Statement (.rxLen b) := ⟨fun _ => rfl, fun _ => ⟨_, rfl⟩⟩

theorem rxEsc : Statement .rxEsc := ⟨fun _ => rfl, fun _ => ⟨_, rfl⟩⟩

theorem rxDend : Statement .rxDend := ⟨fun _ => rfl, fun _ => ⟨_, rfl⟩⟩

theorem rxDstart : Statement .rxDstart := ⟨fun _ => rfl, fun _ => ⟨_, rfl⟩⟩

theorem rxData (b : Byte) : Statement (.rxData b) := ⟨fun _ => rfl, fun _ => ⟨_, rfl⟩⟩

theorem rxEdata (b : Byte) : Statement (.rxEdata b) := ⟨fun _ => rfl, fun _ => ⟨_, rfl⟩⟩

theorem rxEnd : Statement .rxEnd := ⟨fun _ => rfl, fun _ => ⟨_, rfl⟩⟩

theorem rxNoend (b : Byte) : Statement (.rxNoend b) := ⟨fun _ => rfl, fun _ => ⟨_, rfl⟩⟩

theorem rxBadstate (b : Byte) : Statement (.rxBadstate b) := ⟨fun _ => rfl, fun _ => ⟨_, rfl⟩⟩

theorem nop : Statement .nop := by simp [Statement, encode, Instr.isRxRow]

theorem feed (b : Byte) (now : Nat) : Statement (.feed b now) := by simp [Statement, encode, Instr.isRxRow]

theorem tick (now : Nat) : Statement (.tick now) := by simp [Statement, encode, Instr.isRxRow]

theorem startRx : Statement .startRx := by simp [Statement, encode, Instr.isRxRow]

theorem stopRx : Statement .stopRx := by simp [Statement, encode, Instr.isRxRow]

theorem setTimeout (v : Nat) : Statement (.setTimeout v) := by simp [Statement, encode, Instr.isRxRow]

theorem readBuf (i : Byte) : Statement (.readBuf i) := by simp [Statement, encode, Instr.isRxRow]

theorem readStatus : Statement .readStatus := by simp [Statement, encode, Instr.isRxRow]

theorem reset : Statement .reset := by simp [Statement, encode, Instr.isRxRow]

end Sys2Proof.Laws.WordSpace
end

