-- ==== Sys2Proof/Tests/Slice0.lean ====
section
/-! SUPPORT. The model's own tests: ill-formed terms, words written out from the spec's tables, the vectors of
95_test_vectors.md one step at a time (TS_W = 16, TIMEOUT_DEFAULT = 1000, as at `State.reset`), and for every statement with
hypotheses a state that meets them. -/

namespace Sys2Proof.Tests

open Sys2Proof Sys2Proof.Machine

/-! ## Helpers -/

/-- The next state, if there is one. -/
def after : Host.Outcome State Fault Refusal → Option State
  | .next t => some t
  | .fault _ => none
  | .refused _ => none

/-- The refusal, if there is one. -/
def refusal : Host.Outcome State Fault Refusal → Option Refusal
  | .next _ => none
  | .fault _ => none
  | .refused r => some r

/-- The fault, if there is one. -/
def faultOf : Host.Outcome State Fault Refusal → Option Fault
  | .next _ => none
  | .fault f => some f
  | .refused _ => none

/-- The reset state in another parse state. -/
def inState (st : RxState) : State := { State.reset with st := st }

/-- The state of vectors V-R13 to V-R16 and V-P2: a payload of three bytes, `n` of them stored. -/
def midFrame (n crc : Byte) : State := { State.reset with st := .inData, len := 3#8, pos := n, crc := crc, chk := 0xD8#8 }

/-- The state of vectors V-R19 to V-R22: three bytes stored, the END_MARK due. -/
def endDue : State :=
  { State.reset with st := .awaitEnd, len := 3#8, pos := 3#8, crc := 0xD8#8, chk := 0xD8#8 }

/-- One step with an operation presented. -/
def stepOn (s : State) (x : PortInput) : Option State := after (step (s.present x))

/-! ## WellFormed refuses an ill-formed term of each check -/

theorem test_wf_skip_of_start_mark : (Instr.rxSkip 0xAA#8).wellFormed = false := by decide
theorem test_wf_lenovf_in_range : (Instr.rxLenovf 0xFB#8).wellFormed = false := by decide
theorem test_wf_len_zero : (Instr.rxLen 0x00#8).wellFormed = false := by decide
theorem test_wf_len_too_large : (Instr.rxLen 0xFC#8).wellFormed = false := by decide
theorem test_wf_data_reserved : (Instr.rxData 0x5C#8).wellFormed = false := by decide
theorem test_wf_noend_of_end_mark : (Instr.rxNoend 0x55#8).wellFormed = false := by decide

/-! ## Decoding: words written out from the tables of 30_encoding.md R56, R58, R66 -/

theorem test_decode_rxIdle : decodeKey 0b00010101010#11 = .ok (.rxIdle 0xAA#8) := by decide
theorem test_decode_rxStart : decodeKey 0b00110101010#11 = .ok .rxStart := by decide
theorem test_decode_rxSkip : decodeKey 0b00101010101#11 = .ok (.rxSkip 0x55#8) := by decide
theorem test_decode_rxChk : decodeKey 0b01010101010#11 = .ok (.rxChk 0xAA#8) := by decide
theorem test_decode_rxLen0 : decodeKey 0b01100000000#11 = .ok .rxLen0 := by decide
theorem test_decode_rxLenovf : decodeKey 0b01111111100#11 = .ok (.rxLenovf 0xFC#8) := by decide
theorem test_decode_rxLen : decodeKey 0b01111111011#11 = .ok (.rxLen 0xFB#8) := by decide
theorem test_decode_rxEsc : decodeKey 0b10001011100#11 = .ok .rxEsc := by decide
theorem test_decode_rxDend : decodeKey 0b10001010101#11 = .ok .rxDend := by decide
theorem test_decode_rxDstart : decodeKey 0b10010101010#11 = .ok .rxDstart := by decide
theorem test_decode_rxData : decodeKey 0b10001000001#11 = .ok (.rxData 0x41#8) := by decide
theorem test_decode_rxEdata : decodeKey 0b10101011100#11 = .ok (.rxEdata 0x5C#8) := by decide
theorem test_decode_rxEnd : decodeKey 0b11001010101#11 = .ok .rxEnd := by decide
theorem test_decode_rxNoend : decodeKey 0b11010101010#11 = .ok (.rxNoend 0xAA#8) := by decide
theorem test_decode_rxBadstate : decodeKey 0b11100000001#11 = .ok (.rxBadstate 0x01#8) := by decide
theorem test_decode_nop_ignores_fields : decodeInput ⟨false, 0x7F8#11, 99⟩ = .nop := by decide
theorem test_decode_feed : decodeInput ⟨false, 0x6C1#11, 11⟩ = .feed 0xD8#8 11 := by decide
theorem test_decode_tick_ignores_arg : decodeInput ⟨false, 0x55A#11, 151⟩ = .tick 151 := by decide
theorem test_decode_startRx : decodeInput ⟨false, 0x003#11, 0⟩ = .startRx := by decide
theorem test_decode_stopRx : decodeInput ⟨false, 0x004#11, 0⟩ = .stopRx := by decide
theorem test_decode_setTimeout : decodeInput ⟨false, 0x005#11, 20⟩ = .setTimeout 20 := by decide
theorem test_decode_readBuf : decodeInput ⟨false, 0x7D6#11, 0⟩ = .readBuf 250#8 := by decide
theorem test_decode_readStatus : decodeInput ⟨false, 0x007#11, 0⟩ = .readStatus := by decide
theorem test_decode_reset_overrides : decodeInput ⟨true, 0x551#11, 7⟩ = .reset := by decide
theorem test_table_word_key : decodeTableWord 16 0x45C = some .rxEsc := by decide
theorem test_table_word_op : decodeTableWord 8 0x2 = some (.tick 0) := by decide
theorem test_table_word_reset : decodeTableWord 1 1 = some .reset := by decide
theorem test_table_word_refused : decodeTable 24 0 = .error (.notAWord 24 0) := by decide

/-! ## The byte stage: vectors V-R1 to V-R23 -/

theorem test_rxIdle_not_taken :
    (stepOn (inState .idle) (opFeed 0xAA#8 5)).map (fun t => (t.st, t.out.acc, t.lastT)) = some (.idle, false, 0) := by decide
theorem test_rxStart :
    (stepOn (inState .awaitStart) (opFeed 0xAA#8 10)).map (fun t => (t.st, t.out.acc, t.lastT)) =
      some (.awaitChecksum, true, 10) := by decide
theorem test_rxSkip :
    (stepOn (inState .awaitStart) (opFeed 0x5C#8 3)).map (fun t => (t.st, t.out.ev, t.lastT)) =
      some (.awaitStart, .none, 3) := by decide
theorem test_rxChk :
    (stepOn (inState .awaitChecksum) (opFeed 0xAA#8 11)).map (fun t => (t.st, t.chk)) = some (.awaitLength, 0xAA#8) := by
  decide
theorem test_rxLen0 :
    (stepOn (inState .awaitLength) (opFeed 0x00#8 12)).map (fun t => (t.st, t.len, t.out.ev)) =
      some (.awaitStart, 0x00#8, .error .length) := by decide
theorem test_rxLenovf_smallest :
    (stepOn (inState .awaitLength) (opFeed 0xFC#8 12)).map (fun t => (t.st, t.len, t.out.ev)) =
      some (.awaitStart, 252#8, .error .overflow) := by decide
theorem test_rxLen_largest :
    (stepOn (inState .awaitLength) (opFeed 0xFB#8 12)).map (fun t => (t.st, t.len, t.out.ev)) =
      some (.inData, 251#8, .none) := by decide
theorem test_rxLen_raw_reserved :
    (stepOn (inState .awaitLength) (opFeed 0xAA#8 12)).map (fun t => (t.st, t.len)) = some (.inData, 170#8) := by decide
theorem test_rxEsc :
    (stepOn (midFrame 1#8 0x5E#8) (opFeed 0x5C#8 13)).map (fun t => (t.st, t.pos, t.crc)) =
      some (.inEscape, 1#8, 0x5E#8) := by decide
theorem test_rxDend :
    (stepOn (midFrame 1#8 0x5E#8) (opFeed 0x55#8 14)).map (fun t => (t.st, t.pos, t.crc, t.out.ev)) =
      some (.awaitStart, 0#8, 0x00#8, .error .length) := by decide
theorem test_rxDstart_starts_nothing :
    (stepOn (midFrame 1#8 0x5E#8) (opFeed 0xAA#8 14)).map (fun t => (t.st, t.pos, t.out.ev)) =
      some (.awaitStart, 0#8, .error .length) := by decide
theorem test_rxData_stores :
    (stepOn (midFrame 0#8 0x00#8) (opFeed 0x01#8 13)).map (fun t => (t.st, t.pos, t.crc, t.buf)) =
      some (.inData, 1#8, 0x5E#8, [(0, 0x01#8)]) := by decide
theorem test_rxData_completes :
    (stepOn (midFrame 2#8 0x78#8) (opFeed 0x03#8 15)).map (fun t => (t.st, t.pos, t.crc, t.buf)) =
      some (.awaitEnd, 3#8, 0xD8#8, [(2, 0x03#8)]) := by decide
theorem test_rxEdata_reserved_completes :
    (stepOn { inState .inEscape with len := 1#8 } (opFeed 0xAA#8 14)).map (fun t => (t.st, t.pos, t.crc, t.buf)) =
      some (.awaitEnd, 1#8, 0xD1#8, [(0, 0xAA#8)]) := by decide
theorem test_rxEdata_any_byte :
    (stepOn { inState .inEscape with len := 2#8 } (opFeed 0x41#8 14)).map (fun t => (t.st, t.pos, t.crc)) =
      some (.inData, 1#8, 0x18#8) := by decide
theorem test_rxEnd_ready :
    (stepOn endDue (opFeed 0x55#8 16)).map (fun t => (t.st, t.pos, t.crc, t.len, t.chk, t.out.ev)) =
      some (.awaitStart, 0#8, 0x00#8, 3#8, 0xD8#8, .ready 3#8) := by decide
theorem test_rxEnd_crc :
    (stepOn { endDue with chk := 0xD9#8 } (opFeed 0x55#8 16)).map (fun t => (t.st, t.pos, t.out.ev)) =
      some (.awaitStart, 0#8, .error .crc) := by decide
theorem test_rxNoend_consumes_start :
    (stepOn endDue (opFeed 0xAA#8 16)).map (fun t => (t.st, t.pos, t.out.ev)) =
      some (.awaitStart, 0#8, .error .frame) := by decide
theorem test_rxBadstate : refusal (step ((inState .unused7).present (opFeed 0x00#8 0))) = some .badState := by decide
theorem test_append_outside_the_buffer :
    faultOf (exec (.rxData 0x01#8) { inState .inData with pos := 251#8 }) = some (.noSuchCell 251) := by decide

/-! ## The port operations: vectors V-P1 to V-P25 -/

theorem test_feed_timeout_first :
    (stepOn { inState .awaitLength with lastT := 10, tmo := 5 } (opFeed 0x03#8 20)).map
        (fun t => (t.st, t.lastT, t.out.acc, t.out.ev)) =
      some (.awaitStart, 20, true, .error .timeout) := by decide
theorem test_feed_timeout_then_start :
    (stepOn { midFrame 1#8 0x5E#8 with lastT := 10, tmo := 5 } (opFeed 0xAA#8 16)).map
        (fun t => (t.st, t.pos, t.lastT, t.out.ev)) =
      some (.awaitChecksum, 0#8, 16, .error .timeout) := by decide
theorem test_tick_at_the_boundary :
    (stepOn { midFrame 1#8 0x5E#8 with lastT := 100, tmo := 50 } (opTick 150)).map (fun t => (t.st, t.out.ev)) =
      some (.inData, .none) := by decide
theorem test_tick_wraps :
    (stepOn { inState .awaitChecksum with lastT := 65530, tmo := 10 } (opTick 5)).map
        (fun t => (t.st, t.lastT, t.out.ev)) =
      some (.awaitStart, 65530, .error .timeout) := by decide
theorem test_startRx_from_idle : (stepOn (inState .idle) opStart).map (·.st) = some .awaitStart := by decide
theorem test_startRx_mid_frame :
    (stepOn (midFrame 1#8 0x5E#8) opStart).map (fun t => (t.st, t.pos, t.crc)) = some (.inData, 1#8, 0x5E#8) := by decide
theorem test_stopRx :
    (stepOn (midFrame 2#8 0x78#8) opStop).map (fun t => (t.st, t.pos, t.crc, t.len, t.out.ev)) =
      some (.idle, 0#8, 0x00#8, 3#8, .none) := by decide
theorem test_setTimeout : (stepOn (inState .inData) (opSetTimeout 20)).map (·.tmo) = some 20 := by decide
theorem test_readBuf_written :
    (stepOn { inState .awaitStart with buf := [(0, 1#8), (1, 2#8), (2, 3#8)] } (opReadBuf 2#8)).map (·.out.rdata) =
      some 0x00000003#32 := by decide
theorem test_readBuf_out_of_range :
    (stepOn (inState .idle) (opReadBuf 255#8)).map (·.out.rdata) = some 0x00000000#32 := by decide
theorem test_readStatus_mid_frame :
    (stepOn (midFrame 1#8 0x5E#8) opReadStatus).map (·.out.rdata) = some 0xD801031C#32 := by decide
theorem test_readStatus_at_the_end :
    (stepOn { inState .awaitEnd with len := 251#8, pos := 251#8, chk := 0x12#8 } opReadStatus).map (·.out.rdata) =
      some 0x12FBFB1E#32 := by decide
theorem test_nop : stepOn (midFrame 1#8 0x5E#8) opNop = some (midFrame 1#8 0x5E#8) := by decide
theorem test_reset_mid_frame :
    (stepOn { midFrame 2#8 0x78#8 with tmo := 20, buf := [(0, 1#8)] } opReset).map
        (fun t => (t.st, t.chk, t.tmo, t.buf)) =
      some (.idle, 0x00#8, 1000, [(0, 1#8)]) := by decide
theorem test_reset_in_unused_state : (stepOn (inState .unused7) opReset).map (·.st) = some .idle := by decide
theorem test_unwritten_cell_reads_its_power_on_byte :
    exec (.readBuf 250#8) State.reset =
      .next { State.reset with out := { acc := false, ev := .none, rdata := zext32 (Config.powerOnByte 250) } } := rfl

/-! ## The checksum and the encoder: vectors V-C9, V-C10, V-E5, V-E6 -/

theorem test_crc_check_value :
    crc8 [0x31#8, 0x32#8, 0x33#8, 0x34#8, 0x35#8, 0x36#8, 0x37#8, 0x38#8, 0x39#8] = 0xA1#8 := by decide +kernel
theorem test_crc_step_same : crc8Step 0xAB#8 0xAB#8 = 0x00#8 := by decide +kernel
theorem test_encode_plain :
    encodeFrame [0x01#8, 0x02#8, 0x03#8] = [0xAA#8, 0xD8#8, 0x03#8, 0x01#8, 0x02#8, 0x03#8, 0x55#8] := by decide +kernel
theorem test_encode_escapes :
    encodeFrame [0xAA#8, 0x55#8, 0x5C#8] =
      [0xAA#8, 0x6C#8, 0x03#8, 0x5C#8, 0xAA#8, 0x5C#8, 0x55#8, 0x5C#8, 0x5C#8, 0x55#8] := by decide +kernel

/-! ## The fetch point -/

theorem test_withFetchWord_key :
    (after (step (State.reset.withFetchWord 16 0x1AA))).map (·.st) = some .awaitChecksum := by decide
theorem test_withFetchWord_op : (after (step (State.reset.withFetchWord 8 3))).map (·.st) = some .awaitStart := by decide

/-! ## Witnesses: states that meet the statements' hypotheses -/

/-- `EncodedFrameIsDelivered`, `SegmentIsDecoded`: one byte per unit of time from AWAIT_START. -/
theorem gaps_of_one : GapsWithin (inState .awaitStart).params (inState .awaitStart).tmo [0, 1, 2, 3, 4] := by
  intro k hk
  have hk' : k < 4 := by
    simp at hk
    omega
  interval_cases k <;> decide

theorem witness_DecodeEncodeIsIdentity :
    (Instr.rxLen 0x01#8).wellFormed = true ∧ (Instr.rxLen 0xFB#8).wellFormed = true ∧
      (Instr.rxLenovf 0xFC#8).wellFormed = true ∧ (Instr.rxData 0x54#8).wellFormed = true := by decide

theorem witness_EveryKeyIsExactlyOneRow : Instr.rxStart.wellFormed = true ∧ encode .rxStart = .key 0x1AA#11 := by decide

theorem witness_StepPerformsThePresentedInput :
    (State.reset.present (opFeed 0xAA#8 0)).inputs = opFeed 0xAA#8 0 :: [] ∧ State.reset.inputs = [] := by decide

theorem witness_ResetSetsTheRegisters : (State.reset.present opReset).inputs = ⟨true, 0#11, 0⟩ :: [] := by decide

theorem witness_FeedPerformsTheSelectedRow :
    (inState .idle).st = .idle ∧
      (inProgress { inState .inData with lastT := 10, tmo := 5 } = true ∧
        5 < elapsed (inState .inData).params (16 % 2 ^ (inState .inData).params.tsW) 10) ∧
      (inState .awaitStart).st = .awaitStart ∧
      (inProgress { inState .inData with lastT := 10, tmo := 5 } = true ∧
        elapsed (inState .inData).params (15 % 2 ^ (inState .inData).params.tsW) 10 ≤ 5) := by decide

theorem witness_FeedCompletes :
    ({ inState .inData with pos := 250#8 } : State).st ≠ .unused7 ∧
      ({ inState .inData with pos := 250#8 } : State).pos.toNat < 251 := by decide

theorem witness_IdleRowTakesNoByte : State.reset.st = .idle := by decide

theorem witness_HeaderRowsAdvanceTheParser :
    (0x55#8 : Byte) ≠ 0xAA#8 ∧ 1 ≤ (0x01#8 : Byte).toNat ∧ (0xFB#8 : Byte).toNat ≤ 251 := by decide

theorem witness_ErrorRowsRaiseAndResetTheFrame : 252 ≤ (0xFC#8 : Byte).toNat ∧ (0xAA#8 : Byte) ≠ 0x55#8 := by decide

theorem witness_DataRowsAppendTheByte :
    (0x54#8 : Byte) ≠ 0x5C#8 ∧ (0x54#8 : Byte) ≠ 0x55#8 ∧ (0x54#8 : Byte) ≠ 0xAA#8 ∧
      ({ inState .inData with pos := 250#8 } : State).pos.toNat < 251 := by decide

theorem witness_AppendOutsideTheBufferFaults : 251 ≤ ({ inState .inData with pos := 251#8 } : State).pos.toNat := by decide

theorem witness_EndRowComparesTheChecksum :
    endDue.crc = endDue.chk ∧ ({ endDue with chk := 0xD9#8 } : State).crc ≠ ({ endDue with chk := 0xD9#8 } : State).chk := by
  decide

theorem witness_UnusedStateIsRefused :
    (inState .unused7).st = .unused7 ∧ Instr.nop.isRxRow = false ∧ Instr.nop ≠ .reset := by decide

/-- `NopChangesNothing`, `StartAndStopReception`, `ReadStatusReturnsTheStatusWord`: the two clauses of START_RX. -/
theorem witness_known_states :
    (inState .idle).st ≠ .unused7 ∧ (inState .idle).st = .idle ∧ (inState .awaitEnd).st ≠ .unused7 ∧
      (inState .awaitEnd).st ≠ .idle := by decide

theorem witness_TickChecksTheTimeout :
    (inProgress { inState .inData with lastT := 100, tmo := 50 } = true ∧
        50 < elapsed (inState .inData).params (151 % 2 ^ (inState .inData).params.tsW) 100) ∧
      ¬ (inProgress { inState .inData with lastT := 100, tmo := 50 } = true ∧
        50 < elapsed (inState .inData).params (150 % 2 ^ (inState .inData).params.tsW) 100) := by decide

theorem witness_ElapsedIsTheWrappedDifference :
    9 < 2 ^ Config.resetParams.tsW ∧ (65530 + 9) % 2 ^ Config.resetParams.tsW = 3 % 2 ^ Config.resetParams.tsW := by decide

theorem witness_SetTimeoutTakesEffectAtOnce :
    (inState .inData).st ≠ .unused7 ∧ inProgress (inState .inData) = true ∧
      20 % 2 ^ (inState .inData).params.tsW <
        elapsed (inState .inData).params (21 % 2 ^ (inState .inData).params.tsW) (inState .inData).lastT := by decide

theorem witness_ReadBufReturnsTheCell :
    State.reset.st ≠ .unused7 ∧ (250#8 : Byte).toNat < 251 ∧ 251 ≤ (251#8 : Byte).toNat := by decide

/-- `OutputsOfEveryOperation`, `BufferIsWrittenOnlyByAppend`: an operation that answers a next state, and a FEED in each of
the cases of the second. -/
theorem witness_operations_that_complete :
    (∃ t, exec .readStatus State.reset = .next t) ∧ (∃ t, exec .nop State.reset = .next t) ∧
      (∃ t, exec (.feed 0x01#8 0) (inState .inData) = .next t) ∧
      (∃ t, exec (.feed 0xAA#8 0) (inState .awaitStart) = .next t) ∧
      (∃ t, exec (.feed 0x5C#8 0) (inState .inData) = .next t) ∧
      (∃ t, exec (.feed 0x55#8 0) (inState .inData) = .next t) ∧
      (∃ t, exec (.feed 0xAA#8 0) (inState .inData) = .next t) ∧
      (∃ t, exec (.feed 0x01#8 1001) (inState .inData) = .next t) ∧
      (inState .inData).tmo < elapsed (inState .inData).params (1001 % 2 ^ (inState .inData).params.tsW)
        (inState .inData).lastT :=
  ⟨⟨_, rfl⟩, ⟨_, rfl⟩, ⟨_, rfl⟩, ⟨_, rfl⟩, ⟨_, rfl⟩, ⟨_, rfl⟩, ⟨_, rfl⟩, ⟨_, rfl⟩, by decide⟩

theorem witness_NoEventWithNoFrameInProgress :
    (∃ t, exec (.tick 60000) (inState .idle) = .next t) ∧ (∃ t, exec (.tick 60000) (inState .awaitStart) = .next t) :=
  ⟨⟨_, rfl⟩, ⟨_, rfl⟩⟩

theorem witness_AnEventEndsTheAttempt : ∃ t, exec (.feed 0x55#8 0) endDue = .next t ∧ t.out.ev ≠ .none :=
  ⟨_, rfl, by decide⟩

theorem witness_StatusAfterAnError :
    ∃ t, exec (.feed 0xAA#8 0) endDue = .next t ∧ t.out.ev = .error .frame ∧ t.st = .awaitStart := ⟨_, rfl, rfl, rfl⟩

theorem witness_CrcIsLinear : ([0x01#8, 0x02#8] : List Byte).length = ([0x80#8, 0x00#8] : List Byte).length := by decide

theorem witness_CrcDetectsBurstsOfEightBits : (0xFF#8 : Byte) ≠ 0x00#8 ∧ 8 ≤ 8 ∧ 249 + 0 + 2 ≤ 251 := by decide

theorem witness_EncoderLengthAndTruncation : ([0x5C#8] : List Byte) ≠ [] := by decide

theorem witness_EncodedFrameIsDelivered :
    (inState .awaitStart).st = .awaitStart ∧ 1 ≤ [0x41#8].length ∧ [0x41#8].length ≤ 251 ∧
      [0, 1, 2, 3, 4].length = (encodeFrame [0x41#8]).length ∧
      GapsWithin (inState .awaitStart).params (inState .awaitStart).tmo [0, 1, 2, 3, 4] :=
  ⟨rfl, by decide, by decide, by decide, gaps_of_one⟩

theorem witness_SegmentIsDecoded :
    (inState .awaitStart).st = .awaitStart ∧ 1 ≤ [WireUnit.plain 0x41#8].length ∧ [WireUnit.plain 0x41#8].length ≤ 251 ∧
      (∀ u ∈ [WireUnit.plain 0x41#8], u.valid = true) ∧
      [0, 1, 2, 3, 4].length = (segment 0x18#8 [.plain 0x41#8]).length ∧
      GapsWithin (inState .awaitStart).params (inState .awaitStart).tmo [0, 1, 2, 3, 4] :=
  ⟨rfl, by decide, by decide, by decide, by decide, gaps_of_one⟩

/-- A run whose last event is READY(1): the frame of the payload [0x41]. -/
theorem witness_ReadyOnlyAfterASegment :
    ∃ tr, runTrace (inState .awaitStart) (feedsAt [0xAA#8, 0x18#8, 0x01#8, 0x41#8, 0x55#8] [0, 1, 2, 3, 4]) = some tr ∧
      (events tr).getLast? = some (.ready 1#8) ∧
      GapsWithin (inState .awaitStart).params (inState .awaitStart).tmo [0, 1, 2, 3, 4] := by
  refine ⟨_, rfl, ?_, gaps_of_one⟩
  decide

theorem witness_GarbageIsSkipped :
    (inState .awaitStart).st = .awaitStart ∧ [3, 9000].length = [0x55#8, 0x5C#8].length ∧
      ∀ b ∈ ([0x55#8, 0x5C#8] : List Byte), b ≠ 0xAA#8 := by decide

theorem witness_FlippedDataBitGivesCrcError :
    (Config.isReserved 0x5C#8 = true ∨ Config.isReserved (0x5C#8 ^^^ (1#8 <<< 7)) = false) ∧
      (Config.isReserved 0x41#8 = false ∧ Config.isReserved (0x41#8 ^^^ (1#8 <<< 0)) = false) ∧
      0 + 1 + 0 ≤ 251 ∧ [0, 1, 2, 3, 4].length = (encodeFrame ([] ++ [0x41#8] ++ [])).length ∧
      GapsWithin (inState .awaitStart).params (inState .awaitStart).tmo [0, 1, 2, 3, 4] :=
  ⟨by decide, by decide, by decide, by decide, gaps_of_one⟩

theorem witness_FlippedPayloadBitNeverGivesReady :
    ∃ tr, runTrace (inState .awaitStart)
        (feedsAt ((encodeFrame [0x41#8]).set 3 ((encodeFrame [0x41#8]).getD 3 0x00#8 ^^^ (1#8 <<< 0))) [0, 1, 2, 3, 4]) =
      some tr ∧ 3 + 1 < (encodeFrame [0x41#8]).length ∧ [0, 1, 2, 3, 4].length = (encodeFrame [0x41#8]).length ∧
      GapsWithin (inState .awaitStart).params (inState .awaitStart).tmo [0, 1, 2, 3, 4] :=
  ⟨_, rfl, by decide, by decide, gaps_of_one⟩

/-- `BufferStaysUntilTheNextAppend`: a run inside the payload region that appends nothing, its last byte after a timeout. -/
theorem witness_BufferStaysUntilTheNextAppend :
    ∃ tr, runTrace (midFrame 0#8 0#8) [opTick 1, opFeed 0x5C#8 2, opTick 3, opFeed 0x41#8 60000, opFeed 0xAA#8 60001] =
        some tr ∧ ∀ x ∈ tr, x.appends = false := by
  refine ⟨_, rfl, ?_⟩
  decide

/-- A FEED appends in IN_DATA and IN_ESCAPE with no timeout before it, and a mark in IN_DATA does not (V-R13 to V-R16). -/
theorem test_appends :
    (runTrace (midFrame 0#8 0#8) [opFeed 0x41#8 1, opFeed 0x5C#8 2, opFeed 0xAA#8 3]).map (·.map Transition.appends) =
        some [true, false, true] ∧
      (runTrace (midFrame 0#8 0#8) [opFeed 0x55#8 1]).map (·.map Transition.appends) = some [false] := by decide

/-- `NoSecondTimeoutBeforeANewStart`, `EveryAttemptEndsOnce`, `LeftoversChangeNoEvent`: a
run of garbage and ticks from AWAIT_START. -/
theorem witness_runs :
    ∃ tr, runTrace (inState .awaitStart) [opFeed 0x55#8 3, opTick 60000] = some tr ∧
      inProgress (inState .awaitStart) = false ∧ (∀ x ∈ tr, x.startsAttempt = false) ∧
      (inState .awaitStart).st = ({ inState .awaitStart with chk := 1#8, lastT := 7 } : State).st := by
  refine ⟨_, rfl, ?_⟩
  decide

/-- The invariant holds at reset and a step from there completes. -/
theorem witness_Inv : Inv State.reset ∧ ∃ t, step State.reset = .next t := by
  refine ⟨⟨by decide, by decide, by decide, Memory.wf_nil, by decide, by decide, by decide, ?_, by decide, by decide⟩, _, rfl⟩
  intro h
  exact absurd h (by decide)

/-- A frame in progress that meets the invariant, for the clauses of `AStalledFrameCanBeEnded`. -/
theorem witness_Inv_in_progress :
    Inv (inState .awaitChecksum) ∧ inProgress (inState .awaitChecksum) = true ∧
      (inState .awaitChecksum).tmo + 1 < 2 ^ (inState .awaitChecksum).params.tsW ∧
      Inv { inState .awaitChecksum with tmo := 65535 } ∧
      65535 + 1 = 2 ^ (inState .awaitChecksum).params.tsW := by
  refine ⟨⟨by decide, by decide, by decide, Memory.wf_nil, by decide, by decide, by decide, ?_, by decide, by decide⟩,
    by decide, by decide,
    ⟨by decide, by decide, by decide, Memory.wf_nil, by decide, by decide, by decide, ?_, by decide, by decide⟩, by decide⟩
  · intro h
    exact absurd h (by decide)
  · intro h
    exact absurd h (by decide)

end Sys2Proof.Tests
end

section
/-! Every step completes (00_scope.md R14, 70_reset_and_hazards.md R140): an operation completes outside the unused state
code while an append has room, the invariant gives both, and no operation touches the parameters or the presented list. -/

namespace Sys2Proof.Machine

/-! ## Every operation completes -/

/-- While payload bytes are missing, the write position names a cell (10_state.md R29, 42_receive_fsm.md R82). -/
theorem Inv.pos_lt_bufCap {s : State} (hs : Inv s) (h : s.st = .inData ∨ s.st = .inEscape) :
    s.pos.toNat < Config.bufCap := by
  have hin : inFrame s = true := by rcases h with h | h <;> simp [inFrame, h]
  exact (hs.room h).trans_le (hs.length_range hin).2

/-- A FEED completes: after a timeout its byte stage runs from AWAIT_START, otherwise from the state's own parse state. -/
theorem execFeed_completes {s : State} (b : Byte) (now : Nat) (h7 : s.st ≠ .unused7)
    (hp : s.st = .inData ∨ s.st = .inEscape → s.pos.toNat < Config.bufCap) : ∃ t, execFeed b now s = .next t := by
  by_cases hidle : s.st = .idle
  · exact ⟨_, execFeed_idle b now hidle⟩
  · rw [execFeed_taken b now hidle h7]
    cases ht : timedOut s (timeOperand s.params now) with
    | true =>
      rw [takeByte_timedOut ht]
      exact rxByte_completes b nofun nofun
    | false =>
      rw [takeByte_inTime ht]
      exact rxByte_completes b h7 hp

/-- Every port operation, and reset, completes outside the unused state code while an append has room. -/
theorem exec_completes {s : State} {i : Instr} (hi : i.isRxRow = false) (h7 : s.st ≠ .unused7)
    (hp : s.st = .inData ∨ s.st = .inEscape → s.pos.toNat < Config.bufCap) : ∃ t, exec i s = .next t := by
  cases i with
  | feed b now => exact execFeed_completes b now h7 hp
  | reset => exact ⟨_, rfl⟩
  | nop | tick _ | startRx | stopRx | setTimeout _ | readBuf _ | readStatus => exact ⟨_, inKnownState_of_known _ h7⟩
  | rxIdle _ | rxStart | rxSkip _ | rxChk _ | rxLen0 | rxLenovf _ | rxLen _ | rxEsc | rxDend | rxDstart | rxData _
  | rxEdata _ | rxEnd | rxNoend _ | rxBadstate _ => cases hi

/-- Every step completes from a state that meets the invariant. -/
theorem step_completes {s : State} (hs : Inv s) : ∃ t, step s = .next t := by
  cases hx : s.inputs with
  | nil =>
    rw [step_nil hx]
    exact exec_completes rfl hs.known hs.pos_lt_bufCap
  | cons x xs =>
    rw [step_cons hx]
    exact exec_completes (decodeInput_isRxRow x) hs.known hs.pos_lt_bufCap

/-! ## What no operation writes: the parameters and the presented list -/

theorem RowEffect.params_inputs {u t : State} {b : Byte} (h : RowEffect u b t) :
    t.params = u.params ∧ t.inputs = u.inputs := by
  cases h <;> exact ⟨rfl, rfl⟩

theorem PortEffect.params_inputs {s t : State} {i : Instr} (h : PortEffect s i t) :
    t.params = s.params ∧ t.inputs = s.inputs := by
  cases h with
  | feedRow _ _ _ _ _ _ hr => exact hr.params_inputs
  | _ => exact ⟨rfl, rfl⟩

/-- A step takes the head of the presented list and keeps the parameters, from every state. -/
theorem step_params_inputs {s t : State} (h : step s = .next t) : t.params = s.params ∧ t.inputs = s.inputs.tail := by
  rcases step_effect h with ⟨hx, he⟩ | ⟨x, xs, hx, he⟩
  · simpa [hx] using he.params_inputs
  · simpa [hx] using he.params_inputs

/-- Settles O52: the invariant rules out the unused state code and an append without room, the only ways a step stops. -/
theorem everyStepCompletes : Obligations.EveryStepCompletes := by
  intro s hs
  obtain ⟨t, ht⟩ := step_completes hs
  exact ⟨t, ht, step_params_inputs ht⟩

end Sys2Proof.Machine
end

section
/-! What is read off the registers, and their values at power-on (10_state.md R23, R26, R31). -/

namespace Sys2Proof.Machine

/-- The states in which a frame is in progress (10_state.md R23). -/
theorem inProgress_iff (s : State) :
    inProgress s = true ↔
      s.st = .awaitChecksum ∨ s.st = .awaitLength ∨ s.st = .inData ∨ s.st = .inEscape ∨ s.st = .awaitEnd := by
  cases h : s.st <;> simp [inProgress, h]

/-- The payload region and the end of a frame (10_state.md R29). -/
theorem inFrame_iff (s : State) : inFrame s = true ↔ s.st = .inData ∨ s.st = .inEscape ∨ s.st = .awaitEnd := by
  cases h : s.st <;> simp [inFrame, h]

/-- The payload region lies within a frame in progress. -/
theorem inProgress_of_inFrame {s : State} (h : inFrame s = true) : inProgress s = true := by
  rw [inFrame_iff] at h
  rw [inProgress_iff]
  exact .inr (.inr h)

theorem rxEnabled_iff (s : State) : rxEnabled s = true ↔ s.st ≠ .idle := by simp [rxEnabled]

/-- Settles O8, by the two predicates' lists of states. -/
theorem derivedPredicates : Obligations.DerivedPredicates := fun s => ⟨rxEnabled_iff s, inProgress_iff s⟩

/-- Each field of a word laid out as STATUS is found at its bits (10_state.md R26): the fields below it are dropped, and it
is what then stands lowest. -/
theorem status_layout (chk pos len : Byte) (busy en : Bool) (c : BitVec 3) :
    let w := chk ++ pos ++ len ++ 0#3 ++ BitVec.ofBool busy ++ BitVec.ofBool en ++ c
    w.extractLsb' 0 3 = c ∧ w.getLsbD 3 = en ∧ w.getLsbD 4 = busy ∧ w.extractLsb' 5 3 = 0#3 ∧
      w.extractLsb' 8 8 = len ∧ w.extractLsb' 16 8 = pos ∧ w.extractLsb' 24 8 = chk := by
  intro w
  refine ⟨BitVec.extractLsb'_append_eq_right, ?en, ?busy, ?zero, ?len, ?pos, ?chk⟩
  case en | busy =>
    simp only [w, BitVec.getLsbD_append, BitVec.getLsbD_ofBool]
    rfl
  case zero | len | pos =>
    simp (disch := omega) only [w, BitVec.extractLsb'_append_eq_of_le]
    exact BitVec.extractLsb'_append_eq_right
  case chk =>
    simp (disch := omega) only [w, BitVec.extractLsb'_append_eq_of_le]
    exact BitVec.extractLsb'_eq_self

/-- Settles O9: the fields of the layout, with the codes of R17 in the lowest. -/
theorem statusWordFields : Obligations.StatusWordFields := by
  intro s
  obtain ⟨hst, hrest⟩ := status_layout s.chk s.pos s.len (inProgress s) (rxEnabled s) (stCode s.st)
  refine ⟨hst.trans ?_, hrest⟩
  cases s.st <;> rfl

/-- A buffer with no cell written reads its power-on bytes (20_memory.md R41). -/
theorem Memory.read_nil {a : Nat} (h : a < 251) : Memory.read [] a = Config.powerOnByte a := if_pos h

/-- Settles O10: the registers by their power-on lemmas, the cells because none has been written. -/
theorem powerOnState : Obligations.PowerOnState := fun p =>
  ⟨State.powerOn_params p, State.powerOn_st p, State.powerOn_chk p, State.powerOn_len p, State.powerOn_pos p,
    State.powerOn_crc p, State.powerOn_lastT p, State.powerOn_tmo p, fun _ ha => Memory.read_nil ha,
    Config.resetParams, rfl⟩

end Sys2Proof.Machine
end

section
/-! The invariants of 10_state.md R29 and R30 hold at power-on and every step keeps them. `Inv` is built in two ways: outside
the payload region `pos` and `crc` are 0, inside it the length, the room and the running CRC are as R29 says. The steps that
change what R29 speaks of are three: an accepted length, an ESC, and the append. -/

namespace Sys2Proof.Machine

/-! ## The bytes stored so far -/

/-- The checksum of a list is its running form (40_checksum.md R70). -/
theorem crc8_append_singleton (p : List Byte) (b : Byte) : crc8 (p ++ [b]) = crc8Step (crc8 p) b :=
  crc8From_append _ p [b]

/-- The increment of a write position that names a cell does not wrap (42_receive_fsm.md R82). -/
theorem toNat_add_one_of_lt_bufCap {x : Byte} (h : x.toNat < Config.bufCap) : (x + 1#8).toNat = x.toNat + 1 := by
  rw [Config.bufCap_eq] at h
  bv_omega

/-- An append adds its byte at the end of the bytes stored so far. -/
theorem State.stored_appended {s : State} (b : Byte) (h : s.pos.toNat < Config.bufCap) :
    (s.appended b).stored = s.stored ++ [b] := by
  have hold : (List.range s.pos.toNat).map (s.buf.store s.pos.toNat b).cell = s.stored := by
    refine List.map_congr_left fun k hk => ?_
    rw [Memory.cell_store, if_neg (List.mem_range.1 hk).ne]
  simp [State.stored, toNat_add_one_of_lt_bufCap h, List.range_succ, hold, Memory.cell_store]

/-! ## The two ways of meeting the invariant -/

/-- Outside the payload region (10_state.md R30). -/
theorem Inv.of_outside {s : State} (hp : s.params.Legal) (hl : s.lastT < 2 ^ s.params.tsW)
    (hv : s.tmo < 2 ^ s.params.tsW) (hb : Memory.wf s.buf) (h7 : s.st ≠ .unused7) (hf : inFrame s = false)
    (h0 : s.pos = 0x00#8 ∧ s.crc = 0x00#8) : Inv s where
  legal := hp
  lastT_width := hl
  tmo_width := hv
  buf_wf := hb
  known := h7
  scanning _ := h0
  length_range h := by simp [hf] at h
  room h := by rcases h with h | h <;> simp [inFrame, h] at hf
  complete h := by simp [inFrame, h] at hf
  running h := by simp [hf] at h

/-- In the payload region and at its end (10_state.md R29). -/
theorem Inv.of_inside {s : State} (hp : s.params.Legal) (hl : s.lastT < 2 ^ s.params.tsW)
    (hv : s.tmo < 2 ^ s.params.tsW) (hb : Memory.wf s.buf) (hf : inFrame s = true)
    (hlen : 1 ≤ s.len.toNat ∧ s.len.toNat ≤ Config.bufCap)
    (hroom : s.st = .inData ∨ s.st = .inEscape → s.pos.toNat < s.len.toNat) (hend : s.st = .awaitEnd → s.pos = s.len)
    (hcrc : s.crc = crc8 s.stored) : Inv s where
  legal := hp
  lastT_width := hl
  tmo_width := hv
  buf_wf := hb
  known h := by simp [inFrame, h] at hf
  scanning h := by simp [hf] at h
  length_range _ := hlen
  room := hroom
  complete := hend
  running _ := hcrc

/-- The invariant reads no output and no input list, and of the time registers only their widths. -/
theorem Inv.of_times {s : State} (hs : Inv s) {l v : Nat} (hl : l < 2 ^ s.params.tsW) (hv : v < 2 ^ s.params.tsW)
    (xs : List PortInput) (o : Output) : Inv { s with lastT := l, tmo := v, inputs := xs, out := o } where
  legal := hs.legal
  lastT_width := hl
  tmo_width := hv
  buf_wf := hs.buf_wf
  known := hs.known
  scanning := hs.scanning
  length_range := hs.length_range
  room := hs.room
  complete := hs.complete
  running := hs.running

theorem Inv.of_out {s : State} (hs : Inv s) (o : Output) : Inv { s with out := o } :=
  hs.of_times hs.lastT_width hs.tmo_width s.inputs o

/-! ## Moves outside the payload region -/

/-- A frame reset (60_exceptions.md R119) into any state outside the payload region, whatever `len` and time it leaves. -/
theorem Inv.toOutside {s : State} (hs : Inv s) (x : RxState) (h7 : x ≠ .unused7)
    (hf : inFrame { s with st := x } = false) (n : Byte) {l : Nat} (hl : l < 2 ^ s.params.tsW) (o : Output) :
    Inv { s with st := x, len := n, pos := 0x00#8, crc := 0x00#8, lastT := l, out := o } :=
  .of_outside hs.legal hl hs.tmo_width hs.buf_wf h7 hf ⟨rfl, rfl⟩

/-- A frame reset into AWAIT_START, as every error, delivery and START_RX does it. -/
theorem Inv.toAwaitStart {s : State} (hs : Inv s) (n : Byte) (o : Output) :
    Inv { s with st := .awaitStart, len := n, pos := 0x00#8, crc := 0x00#8, out := o } :=
  hs.toOutside .awaitStart nofun rfl n hs.lastT_width o

/-- A header byte moves the parser within the states outside the payload region (42_receive_fsm.md R84, R86). -/
theorem Inv.header {s : State} (hs : Inv s) (hf : inFrame s = false) (x : RxState) (h7 : x ≠ .unused7)
    (hx : inFrame { s with st := x } = false) (c : Byte) : Inv { s with st := x, chk := c } :=
  .of_outside hs.legal hs.lastT_width hs.tmo_width hs.buf_wf h7 hx (hs.scanning hf)

/-! ## Moves into and within the payload region -/

/-- An accepted length opens an empty payload region (42_receive_fsm.md R89). -/
theorem Inv.length {s : State} (hs : Inv s) {b : Byte} (h0 : b ≠ 0x00#8) (hb : b.toNat ≤ 251) :
    Inv { s with len := b, pos := 0x00#8, crc := 0x00#8, st := .inData } :=
  have hpos : 1 ≤ b.toNat := by bv_omega
  .of_inside hs.legal hs.lastT_width hs.tmo_width hs.buf_wf rfl ⟨hpos, hb⟩ (fun _ => hpos) nofun rfl

/-- An ESC changes nothing that R29 speaks of (42_receive_fsm.md R90). -/
theorem Inv.escape {s : State} (hs : Inv s) (h : s.st = .inData) : Inv { s with st := .inEscape } :=
  have hin : inFrame s = true := (inFrame_iff s).2 (.inl h)
  .of_inside hs.legal hs.lastT_width hs.tmo_width hs.buf_wf rfl (hs.length_range hin) (fun _ => hs.room (.inl h)) nofun
    (hs.running hin)

/-- An append in the payload region (42_receive_fsm.md R82): `pos` stays below `len` or reaches it, and the running CRC
follows the bytes stored. -/
theorem Inv.appended {s : State} (hs : Inv s) (b : Byte) (h : s.st = .inData ∨ s.st = .inEscape) :
    Inv (s.appended b) := by
  have hin : inFrame s = true := (inFrame_iff s).2 (or_assoc.1 (.inl h))
  have hcap := hs.pos_lt_bufCap h
  have hpos := toNat_add_one_of_lt_bufCap hcap
  have hcrc : (s.appended b).crc = crc8 (s.appended b).stored := by
    rw [State.stored_appended b hcap, crc8_append_singleton, ← hs.running hin, State.appended_crc]
  have build := fun hf => Inv.of_inside (s := s.appended b) hs.legal hs.lastT_width hs.tmo_width
    (Memory.wf_store b hs.buf_wf hcap) hf (hs.length_range hin)
  by_cases hlast : s.pos + 1#8 = s.len
  · exact build (by simp [inFrame, hlast]) (by simp [hlast]) (fun _ => hlast) hcrc
  · have hroom : (s.appended b).pos.toNat < (s.appended b).len.toNat := by
      have hne : (s.pos + 1#8).toNat ≠ s.len.toNat := fun heq => hlast (BitVec.eq_of_toNat_eq heq)
      have hlt := hs.room h
      rw [State.appended_pos, State.appended_len]
      omega
    exact build (by simp [inFrame, hlast]) (fun _ => hroom) (by simp [hlast]) hcrc

/-! ## Every step keeps the invariant -/

theorem RowEffect.inv {u t : State} {b : Byte} (h : RowEffect u b t) (hu : Inv u) : Inv t := by
  cases h with
  | idle _ => exact hu.of_out _
  | start hst _ => exact hu.header (by simp [inFrame, hst]) .awaitChecksum nofun rfl u.chk
  | skip _ _ => exact hu
  | chk hst => exact hu.header (by simp [inFrame, hst]) .awaitLength nofun rfl b
  | len _ h0 hb => exact hu.length h0 hb
  | esc hst _ => exact hu.escape hst
  | data hst _ _ => exact hu.appended b (.inl hst)
  | edata hst _ => exact hu.appended b (.inr hst)
  | len0 _ _ | lenovf _ _ | mark _ _ | ready _ _ _ | crcError _ _ _ | noend _ _ => exact hu.toAwaitStart _ _

theorem PortEffect.inv {s t : State} {i : Instr} (h : PortEffect s i t) (hs : Inv s) : Inv t := by
  have hmod : ∀ n, n % 2 ^ s.params.tsW < 2 ^ s.params.tsW := fun n => Nat.mod_lt _ (Nat.two_pow_pos _)
  cases h with
  | nop _ | feedIdle _ _ _ | tick _ _ _ | startRx _ _ | readBuf _ _ | readStatus _ => exact hs.of_out _
  | feedTimeout b now _ =>
    split
    · exact hs.toOutside .awaitChecksum nofun rfl _ (hmod now) _
    · exact hs.toOutside .awaitStart nofun rfl _ (hmod now) _
  | feedRow b now _ _ _ _ hr => exact hr.inv (hs.of_times (hmod now) hs.tmo_width _ _)
  | tickTimeout _ _ => exact hs.toAwaitStart _ _
  | startIdle _ => exact hs.toAwaitStart _ _
  | stopRx _ => exact hs.toOutside .idle nofun rfl _ hs.lastT_width _
  | setTimeout v _ => exact hs.of_times hs.lastT_width (hmod v) _ _
  | reset => exact .of_outside hs.legal (Nat.two_pow_pos _) hs.legal.2 hs.buf_wf nofun rfl ⟨rfl, rfl⟩

/-- Settles O50: each case of what a step can do keeps the invariant. -/
theorem invariantIsKeptByEveryStep : Obligations.InvariantIsKeptByEveryStep := by
  intro s t hs h
  rcases step_effect h with ⟨_, he⟩ | ⟨_, xs, _, he⟩
  · exact he.inv hs
  · exact he.inv (hs.of_times hs.lastT_width hs.tmo_width xs s.out)

/-! ## Power-on -/

theorem Inv.powerOn {p : Params} (hp : p.Legal) : Inv (State.powerOn p) :=
  .of_outside hp (Nat.two_pow_pos _) hp.2 Memory.wf_nil nofun rfl ⟨rfl, rfl⟩

/-- Settles O51: at power-on the block is outside the payload region, with `pos` and `crc` at 0 and nothing written. -/
theorem invariantHoldsAtPowerOn : Obligations.InvariantHoldsAtPowerOn :=
  ⟨fun _ hp => .powerOn hp, .powerOn Config.resetParams_legal⟩

end Sys2Proof.Machine
end

section
/-! What a frame leaves behind changes no later event (10_state.md R30). Two runs are followed side by side: `SameAhead`
relates states that agree on every register still to be read in their parse state, and a step from such states gives the same
event and `acc` and such states again. The case of what the first run's step did (`PortEffect`, `RowEffect`) selects the same
case for the second, and each case is also what the step computes. -/

namespace Sys2Proof.Machine

/-! ## A case of what a step can do is what it does -/

theorem RowEffect.rxByte_eq {u t : State} {b : Byte} (h : RowEffect u b t) : rxByte u b = .next t := by
  cases h with
  | idle h => exact rxByte_idle b h
  | start h hb => exact (rxByte_awaitStart b h).trans (if_pos hb)
  | skip h hb => exact (rxByte_awaitStart b h).trans (if_neg hb)
  | chk h => exact rxByte_awaitChecksum b h
  | len0 h hb => exact (rxByte_awaitLength b h).trans (if_pos hb)
  | lenovf h hb =>
    have h0 : b ≠ 0x00#8 := fun h0 => by simp [h0] at hb
    rw [rxByte_awaitLength b h, if_neg h0, if_pos hb]
    rfl
  | len h h0 hb =>
    rw [rxByte_awaitLength b h, if_neg h0, if_neg (Nat.not_lt.2 hb)]
    rfl
  | esc h hb => exact (rxByte_inData b h).trans (if_pos hb)
  | mark h hb =>
    rw [rxByte_inData b h]
    rcases hb with rfl | rfl <;> rfl
  | data h hb hp =>
    obtain ⟨hstart, hend, hesc⟩ := (Config.isReserved_false_iff b).1 hb
    rw [rxByte_inData b h, if_neg hesc, if_neg hend, if_neg hstart]
    exact append_next hp
  | edata h hp => exact (rxByte_inEscape b h).trans (append_next hp)
  | ready h hb hc =>
    rw [rxByte_awaitEnd b h, if_pos hb]
    exact if_pos (by simp [crcOk, hc])
  | crcError h hb hc =>
    rw [rxByte_awaitEnd b h, if_pos hb]
    exact if_neg (by simp [crcOk, hc])
  | noend h hb => exact (rxByte_awaitEnd b h).trans (if_neg hb)

/-- A timeout needs a frame in progress, so `st` is a state that takes bytes. -/
theorem st_of_timedOut {s : State} {now : Nat} (h : timedOut s now = true) : s.st ≠ .idle ∧ s.st ≠ .unused7 := by
  have hin := ((timedOut_iff s now).1 h).1
  constructor <;> intro hst <;> simp [inProgress, hst] at hin

theorem PortEffect.exec_eq {s t : State} {i : Instr} (h : PortEffect s i t) : exec i s = .next t := by
  cases h with
  | nop h7 | readBuf _ h7 | readStatus h7 | stopRx h7 | setTimeout _ h7 => exact inKnownState_of_known _ h7
  | feedIdle b now h => exact execFeed_idle b now h
  | feedTimeout b now ht =>
    obtain ⟨h1, h7⟩ := st_of_timedOut ht
    show execFeed b now s = _
    rw [execFeed_taken b now h1 h7, timeOperand_eq, takeByte_timedOut ht, rxByte_awaitStart b rfl]
    split <;> rfl
  | feedRow b now t h1 h7 ht hr =>
    show execFeed b now s = _
    rw [execFeed_taken b now h1 h7, timeOperand_eq, takeByte_inTime ht, hr.rxByte_eq]
  | tickTimeout now ht =>
    exact (inKnownState_of_known _ (st_of_timedOut ht).2).trans (by simp [State.tmoCheck, ht])
  | tick now h7 ht => exact (inKnownState_of_known _ h7).trans (by simp [State.tmoCheck, ht])
  | startIdle h => exact (inKnownState_of_known _ (by simp [h])).trans (by rw [if_pos h])
  | startRx h7 h => exact (inKnownState_of_known _ h7).trans (by rw [if_neg h])
  | reset => rfl

/-! ## The relation -/

/-- The states agree on what is still to be read: the configuration always; `last_t` while a frame is in progress; `chk` once
the frame has given it; `len`, `pos` and `crc` in the payload region. Nothing of `buf`, and no output (10_state.md R30). -/
structure SameAhead (s s' : State) : Prop where
  params : s.params = s'.params
  st : s.st = s'.st
  tmo : s.tmo = s'.tmo
  lastT : inProgress s = true → s.lastT = s'.lastT
  chk : s.st = .awaitLength ∨ inFrame s = true → s.chk = s'.chk
  len : inFrame s = true → s.len = s'.len
  pos : inFrame s = true → s.pos = s'.pos
  crc : inFrame s = true → s.crc = s'.crc

namespace SameAhead

/-- With no frame in progress only the configuration and `st` are still to be read. -/
theorem of_not_inProgress {s s' : State} (hp : s.params = s'.params) (hst : s.st = s'.st) (htmo : s.tmo = s'.tmo)
    (hin : inProgress s = false) : SameAhead s s' :=
  have hprog : ¬ inProgress s = true := by simp [hin]
  have hframe : ¬ inFrame s = true := fun h => hprog (inProgress_of_inFrame h)
  { params := hp
    st := hst
    tmo := htmo
    lastT := fun h => absurd h hprog
    chk := fun h => absurd (h.elim (fun h => by simp [inProgress, h]) inProgress_of_inFrame) hprog
    len := fun h => absurd h hframe
    pos := fun h => absurd h hframe
    crc := fun h => absurd h hframe }

variable {s s' : State}

/-- Outputs and the input list are not read. -/
theorem of_io (h : SameAhead s s') (xs xs' : List PortInput) (o o' : Output) :
    SameAhead { s with inputs := xs, out := o } { s' with inputs := xs', out := o' } :=
  ⟨h.params, h.st, h.tmo, h.lastT, h.chk, h.len, h.pos, h.crc⟩

theorem of_out (h : SameAhead s s') (o o' : Output) : SameAhead { s with out := o } { s' with out := o' } :=
  h.of_io s.inputs s'.inputs o o'

/-- A byte taken writes `last_t` before the byte stage runs (43_port_operations.md R104). -/
theorem of_lastT (h : SameAhead s s') (l : Nat) (o o' : Output) :
    SameAhead { s with lastT := l, out := o } { s' with lastT := l, out := o' } :=
  ⟨h.params, h.st, h.tmo, fun _ => rfl, h.chk, h.len, h.pos, h.crc⟩

/-- SET_TIMEOUT writes one value in both, from one width (43_port_operations.md R109). -/
theorem of_tmo (h : SameAhead s s') (v : Nat) (o o' : Output) :
    SameAhead { s with tmo := v % 2 ^ s.params.tsW, out := o } { s' with tmo := v % 2 ^ s'.params.tsW, out := o' } :=
  ⟨h.params, h.st, by rw [h.params], h.lastT, h.chk, h.len, h.pos, h.crc⟩

theorem inProgress_eq (h : SameAhead s s') : inProgress s = inProgress s' := by simp only [inProgress, h.st]

/-- The timeout test reads `last_t` only while a frame is in progress (43_port_operations.md R103). -/
theorem timedOut_eq (h : SameAhead s s') (now : Nat) : timedOut s now = timedOut s' now := by
  cases hin : inProgress s with
  | false => rw [timedOut_not_inProgress now hin, timedOut_not_inProgress now (h.inProgress_eq.symm.trans hin)]
  | true => simp only [timedOut, ← h.inProgress_eq, h.tmo, h.params, h.lastT hin]

/-- An append reads `len`, `pos` and `crc`, which agree in the payload region. -/
theorem appended (h : SameAhead s s') (hin : inFrame s = true) (b : Byte) : SameAhead (s.appended b) (s'.appended b) where
  params := h.params
  st := by simp only [State.appended_st, h.pos hin, h.len hin]
  tmo := h.tmo
  lastT _ := h.lastT (inProgress_of_inFrame hin)
  chk _ := h.chk (.inr hin)
  len _ := h.len hin
  pos _ := by simp only [State.appended_pos, h.pos hin]
  crc _ := by simp only [State.appended_crc, h.crc hin]

end SameAhead

/-! ## A step from related states -/

/-- The byte stage performs the same row from both states, once `last_t` has been written. -/
theorem RowEffect.sameAhead {u u' t : State} {b : Byte} (hr : RowEffect u b t) (h : SameAhead u u')
    (hl : u.lastT = u'.lastT) (ho : u.out = u'.out) :
    ∃ t', RowEffect u' b t' ∧ SameAhead t t' ∧ t.out = t'.out := by
  have hst : ∀ {x}, u.st = x → u'.st = x := fun hx => h.st.symm.trans hx
  have hframe : u.st = .inData ∨ u.st = .inEscape ∨ u.st = .awaitEnd → inFrame u = true := (inFrame_iff u).2
  cases hr with
  | idle hx => exact ⟨_, .idle (hst hx), h.of_out _ _, by simp [ho]⟩
  | start hx hb => exact ⟨_, .start (hst hx) hb, ⟨h.params, rfl, h.tmo, fun _ => hl, nofun, nofun, nofun, nofun⟩, ho⟩
  | skip hx hb => exact ⟨_, .skip (hst hx) hb, h, ho⟩
  | chk hx => exact ⟨_, .chk (hst hx), ⟨h.params, rfl, h.tmo, fun _ => hl, fun _ => rfl, nofun, nofun, nofun⟩, ho⟩
  | len0 hx hb => exact ⟨_, .len0 (hst hx) hb, .of_not_inProgress h.params rfl h.tmo rfl, by simp [ho]⟩
  | lenovf hx hb => exact ⟨_, .lenovf (hst hx) hb, .of_not_inProgress h.params rfl h.tmo rfl, by simp [ho]⟩
  | len hx h0 hb =>
    exact ⟨_, .len (hst hx) h0 hb,
      ⟨h.params, rfl, h.tmo, fun _ => hl, fun _ => h.chk (.inl hx), fun _ => rfl, fun _ => rfl, fun _ => rfl⟩, ho⟩
  | esc hx hb =>
    have hin := hframe (.inl hx)
    exact ⟨_, .esc (hst hx) hb,
      ⟨h.params, rfl, h.tmo, fun _ => hl, fun _ => h.chk (.inr hin), fun _ => h.len hin, fun _ => h.pos hin,
        fun _ => h.crc hin⟩, ho⟩
  | mark hx hb => exact ⟨_, .mark (hst hx) hb, .of_not_inProgress h.params rfl h.tmo rfl, by simp [ho]⟩
  | data hx hb hp =>
    have hin := hframe (.inl hx)
    exact ⟨_, .data (hst hx) hb (h.pos hin ▸ hp), h.appended hin b, ho⟩
  | edata hx hp =>
    have hin := hframe (.inr (.inl hx))
    exact ⟨_, .edata (hst hx) (h.pos hin ▸ hp), h.appended hin b, ho⟩
  | ready hx hb hc =>
    have hin := hframe (.inr (.inr hx))
    rw [h.crc hin, h.chk (.inr hin)] at hc
    exact ⟨_, .ready (hst hx) hb hc, .of_not_inProgress h.params rfl h.tmo rfl, by simp [ho, h.len hin]⟩
  | crcError hx hb hc =>
    have hin := hframe (.inr (.inr hx))
    rw [h.crc hin, h.chk (.inr hin)] at hc
    exact ⟨_, .crcError (hst hx) hb hc, .of_not_inProgress h.params rfl h.tmo rfl, by simp [ho]⟩
  | noend hx hb => exact ⟨_, .noend (hst hx) hb, .of_not_inProgress h.params rfl h.tmo rfl, by simp [ho]⟩

/-- An operation does the same from both states; what it reads out (`rdata`) may differ. -/
theorem PortEffect.sameAhead {s s' t : State} {i : Instr} (he : PortEffect s i t) (h : SameAhead s s') :
    ∃ t', PortEffect s' i t' ∧ SameAhead t t' ∧ t.out.ev = t'.out.ev ∧ t.out.acc = t'.out.acc := by
  have hst : ∀ {x}, s.st = x → s'.st = x := fun hx => h.st.symm.trans hx
  have hne : ∀ {x}, s.st ≠ x → s'.st ≠ x := fun hx => h.st ▸ hx
  have htime : ∀ {now r}, timedOut s (now % 2 ^ s.params.tsW) = r → timedOut s' (now % 2 ^ s'.params.tsW) = r :=
    fun ht => by rw [← h.params, ← h.timedOut_eq, ht]
  have hclear : SameAhead s.clearOut s'.clearOut := h.of_out _ _
  cases he with
  | nop h7 => exact ⟨_, .nop (hne h7), hclear, rfl, rfl⟩
  | feedIdle b now hx => exact ⟨_, .feedIdle b now (hst hx), hclear, rfl, rfl⟩
  | feedTimeout b now ht =>
    refine ⟨_, .feedTimeout b now (htime ht), ?_, rfl, rfl⟩
    have hnow : now % 2 ^ s.params.tsW = now % 2 ^ s'.params.tsW := by rw [h.params]
    split
    · exact ⟨h.params, rfl, h.tmo, fun _ => hnow, nofun, nofun, nofun, nofun⟩
    · exact .of_not_inProgress h.params rfl h.tmo rfl
  | feedRow b now t h1 h7 ht hr =>
    obtain ⟨t', hr', hsame, hout⟩ := hr.sameAhead (h.of_lastT (now % 2 ^ s.params.tsW) _ _) rfl rfl
    rw [h.params] at hr'
    exact ⟨t', .feedRow b now t' (hne h1) (hne h7) (htime ht) hr', hsame, by rw [hout], by rw [hout]⟩
  | tickTimeout now ht => exact ⟨_, .tickTimeout now (htime ht), .of_not_inProgress h.params rfl h.tmo rfl, rfl, rfl⟩
  | tick now h7 ht => exact ⟨_, .tick now (hne h7) (htime ht), hclear, rfl, rfl⟩
  | startIdle hx => exact ⟨_, .startIdle (hst hx), .of_not_inProgress h.params rfl h.tmo rfl, rfl, rfl⟩
  | startRx h7 hx => exact ⟨_, .startRx (hne h7) (hne hx), hclear, rfl, rfl⟩
  | stopRx h7 => exact ⟨_, .stopRx (hne h7), .of_not_inProgress h.params rfl h.tmo rfl, rfl, rfl⟩
  | setTimeout v h7 => exact ⟨_, .setTimeout v (hne h7), h.of_tmo v _ _, rfl, rfl⟩
  | readBuf i h7 => exact ⟨_, .readBuf i (hne h7), h.of_out _ _, rfl, rfl⟩
  | readStatus h7 => exact ⟨_, .readStatus (hne h7), h.of_out _ _, rfl, rfl⟩
  | reset =>
    exact ⟨_, .reset, .of_not_inProgress h.params rfl (congrArg Params.timeoutDefault h.params) rfl, rfl, rfl⟩

/-! ## Runs from related states -/

/-- A run that completes is its first step and a run from the state that step leads to. -/
theorem runTrace_cons {s : State} {x : PortInput} {xs : List PortInput} {tr : List Transition} :
    runTrace s (x :: xs) = some tr ↔
      ∃ t trs, step (s.present x) = .next t ∧ runTrace t xs = some trs ∧ tr = ⟨s, x, t⟩ :: trs := by
  rw [runTrace]
  cases step (s.present x) with
  | next t => cases hrest : runTrace t xs <;> simp [hrest, eq_comm]
  | fault r => simp
  | refused r => simp

/-- A step from related states, whatever is presented. -/
theorem SameAhead.step {s s' t : State} (h : SameAhead s s') {x : PortInput} (hs : step (s.present x) = .next t) :
    ∃ t', step (s'.present x) = .next t' ∧ SameAhead t t' ∧ t.out.ev = t'.out.ev ∧ t.out.acc = t'.out.acc := by
  have he : PortEffect { s with inputs := [] } (decodeInput x) t := exec_effect (decodeInput_isRxRow x) hs
  obtain ⟨t', he', hsame⟩ := he.sameAhead (h.of_io [] [] s.out s'.out)
  exact ⟨t', he'.exec_eq, hsame⟩

/-- A run from related states, by induction on what is presented. -/
theorem SameAhead.run {s s' : State} (h : SameAhead s s') {xs : List PortInput} {tr : List Transition}
    (hr : runTrace s xs = some tr) :
    ∃ tr', runTrace s' xs = some tr' ∧ events tr = events tr' ∧
      tr.map (fun x => x.after.out.acc) = tr'.map (fun x => x.after.out.acc) := by
  induction xs generalizing s s' tr with
  | nil =>
    cases hr
    exact ⟨[], rfl, rfl, rfl⟩
  | cons x xs ih =>
    obtain ⟨t, trs, hs, hrest, rfl⟩ := runTrace_cons.1 hr
    obtain ⟨t', hs', hsame, hev, hacc⟩ := h.step hs
    obtain ⟨trs', hrest', hevs, haccs⟩ := ih hsame hrest
    refine ⟨_, runTrace_cons.2 ⟨t', trs', hs', hrest', rfl⟩, ?_, ?_⟩
    · exact congrArg₂ List.cons hev hevs
    · exact congrArg₂ List.cons hacc haccs

/-- Settles O49: with no frame in progress the configuration and `st` are all that is still to be read. -/
theorem leftoversChangeNoEvent : Obligations.LeftoversChangeNoEvent := fun _ _ _ _ hin hst hp htmo hr =>
  (SameAhead.of_not_inProgress hp hst htmo hin).run hr

end Sys2Proof.Machine
end

section
/-! What writes the receive buffer (20_memory.md R34, R46, R47). Every operation leaves the buffer as it was, or it is a FEED
that appends: in time, in IN_ESCAPE or of a byte that is not reserved in IN_DATA, and then it stores its byte at `pos`. A
write position that names no cell stores nothing: the append faults. -/

namespace Sys2Proof.Machine

/-- Settles O20: both rows are the append, which faults where the write position names no cell. -/
theorem appendOutsideTheBufferFaults : Obligations.AppendOutsideTheBufferFaults := fun s b h =>
  have hfault : append b s = .fault (.noSuchCell s.pos.toNat) := append_fault h.not_gt
  ⟨hfault, hfault⟩

/-! ## A single step -/

/-- A row of the byte stage leaves the buffer as it was or appends its byte (42_receive_fsm.md R93, R94). -/
theorem RowEffect.buf_cases {u t : State} {b : Byte} (h : RowEffect u b t) :
    t.buf = u.buf ∨
      (u.st = .inEscape ∨ u.st = .inData ∧ Config.isReserved b = false) ∧ t.buf = u.buf.store u.pos.toNat b := by
  cases h with
  | data hst hb _ => exact .inr ⟨.inr ⟨hst, hb⟩, rfl⟩
  | edata hst _ => exact .inr ⟨.inl hst, rfl⟩
  | _ => exact .inl rfl

/-- An operation leaves the buffer as it was, or it is a FEED with no timeout first whose byte is appended. -/
theorem PortEffect.buf_cases {s t : State} {i : Instr} (h : PortEffect s i t) :
    t.buf = s.buf ∨ ∃ b now, i = .feed b now ∧ timedOut s (now % 2 ^ s.params.tsW) = false ∧
      (s.st = .inEscape ∨ s.st = .inData ∧ Config.isReserved b = false) ∧ t.buf = s.buf.store s.pos.toNat b := by
  cases h with
  | feedRow b now _ _ _ ht hr => exact hr.buf_cases.imp_right fun hrow => ⟨b, now, rfl, ht, hrow⟩
  | _ => exact .inl rfl

/-- Settles O34: of the two ways, the append rules out each premise under which the buffer is claimed unchanged. -/
theorem bufferIsWrittenOnlyByAppend : Obligations.BufferIsWrittenOnlyByAppend := by
  intro i s t hi h
  obtain hbuf | ⟨b, now, rfl, htime, hrow, hbuf⟩ := (exec_effect hi h).buf_cases
  · exact ⟨fun _ => hbuf, fun _ _ _ => ⟨fun a _ => by rw [hbuf], fun _ _ => hbuf, fun _ _ => hbuf, fun _ => hbuf⟩⟩
  · refine ⟨fun hne => absurd rfl (hne b now), fun b' now' heq => ?_⟩
    cases heq
    refine ⟨fun a ha => ?cell, fun hdata hescape => ?state, fun hst hb => ?reserved, fun hlate => ?late⟩
    case cell => rw [hbuf, Memory.cell_store, if_neg ha]
    case state => simp [hdata, hescape] at hrow
    case reserved =>
      have hres : Config.isReserved b = true := (Config.isReserved_iff b).2 (by tauto)
      simp [hst, hres] at hrow
    case late =>
      have hprog : inProgress s = true := (inProgress_iff s).2 (by tauto)
      exact absurd ⟨hprog, hlate⟩ ((timedOut_false_iff s _).1 htime)

/-! ## A run -/

/-- A run in which no step appends leaves the whole buffer as it was, by induction on what is presented. -/
theorem buf_finalState_of_not_appends {s : State} {xs : List PortInput} {tr : List Transition}
    (hr : runTrace s xs = some tr) (ha : ∀ x ∈ tr, x.appends = false) : (finalState s tr).buf = s.buf := by
  induction xs generalizing s tr with
  | nil =>
    cases hr
    rfl
  | cons x xs ih =>
    obtain ⟨t, trs, hs, hrest, rfl⟩ := runTrace_cons.1 hr
    obtain ⟨hfirst, hlater⟩ := List.forall_mem_cons.1 ha
    calc (finalState t trs).buf = t.buf := ih hrest hlater
      _ = s.buf := buf_of_not_appends hs hfirst

/-- Settles O46: the buffer itself is as it was, so every index reads as it did. -/
theorem bufferStaysUntilTheNextAppend : Obligations.BufferStaysUntilTheNextAppend := fun _ _ _ hr ha i =>
  congrArg (Memory.read · i) (buf_finalState_of_not_appends hr ha)

end Sys2Proof.Machine
end

section
/-! The key table of 30_encoding.md R56 and the encoder invert each other. Which bytes make a row well formed is said once per
row that does not take every byte; those are the conditions by which the decoder picks the row, so decoding an encoding gives
the instruction back, and what a key decodes to encodes to that key. -/

namespace Sys2Proof

/-! ## The bytes of the rows that do not take every byte -/

theorem wellFormed_rxSkip {b : Byte} : (Instr.rxSkip b).wellFormed = true ↔ b ≠ Config.startMark := by
  simp [Instr.wellFormed]

theorem wellFormed_rxLenovf {b : Byte} : (Instr.rxLenovf b).wellFormed = true ↔ Config.bufCap < b.toNat :=
  decide_eq_true_iff

theorem wellFormed_rxLen {b : Byte} :
    (Instr.rxLen b).wellFormed = true ↔ b ≠ 0x00#8 ∧ ¬ Config.bufCap < b.toNat := by
  simp [Instr.wellFormed, Nat.one_le_iff_ne_zero, BitVec.toNat_eq]

theorem wellFormed_rxData {b : Byte} :
    (Instr.rxData b).wellFormed = true ↔ b ≠ Config.startMark ∧ b ≠ Config.endMark ∧ b ≠ Config.esc := by
  rw [← Config.isReserved_false_iff]
  simp [Instr.wellFormed]

theorem wellFormed_rxNoend {b : Byte} : (Instr.rxNoend b).wellFormed = true ↔ b ≠ Config.endMark := by
  simp [Instr.wellFormed]

/-- No length byte is both 0 and above the capacity of the buffer (R56, rows RX.LEN0 and RX.LENOVF). -/
theorem ne_zero_of_bufCap_lt {b : Byte} (h : Config.bufCap < b.toNat) : b ≠ 0x00#8 := by
  rintro rfl
  simp at h

/-! ## Decode of encode -/

/-- The state or operation code alone selects the instruction, or the decoder goes by the byte, and then what makes the row
well formed is what selects it. -/
theorem decode_encode {i : Instr} (h : i.wellFormed = true) : decode (encode i) = .ok i := by
  cases i with
  | rxIdle b => exact decodeKey_idle b
  | rxStart => exact decodeKey_awaitStart Config.startMark
  | rxSkip b => exact (decodeKey_awaitStart b).trans (congrArg _ (if_neg (wellFormed_rxSkip.1 h)))
  | rxChk b => exact decodeKey_awaitChecksum b
  | rxLen0 => exact decodeKey_awaitLength 0x00#8
  | rxLenovf b =>
    have hb := wellFormed_rxLenovf.1 h
    exact (decodeKey_awaitLength b).trans (by rw [if_neg (ne_zero_of_bufCap_lt hb), if_pos hb])
  | rxLen b =>
    obtain ⟨h0, hb⟩ := wellFormed_rxLen.1 h
    exact (decodeKey_awaitLength b).trans (by rw [if_neg h0, if_neg hb])
  | rxEsc => exact decodeKey_inData Config.esc
  | rxDend => exact decodeKey_inData Config.endMark
  | rxDstart => exact decodeKey_inData Config.startMark
  | rxData b =>
    obtain ⟨hstart, hend, hesc⟩ := wellFormed_rxData.1 h
    exact (decodeKey_inData b).trans (by rw [if_neg hesc, if_neg hend, if_neg hstart])
  | rxEdata b => exact decodeKey_inEscape b
  | rxEnd => exact decodeKey_awaitEnd Config.endMark
  | rxNoend b => exact (decodeKey_awaitEnd b).trans (congrArg _ (if_neg (wellFormed_rxNoend.1 h)))
  | rxBadstate b => exact decodeKey_unused7 b
  | nop => exact congrArg _ (decodeInput_nop 0#8 0)
  | feed b now => exact congrArg _ (decodeInput_feed b now)
  | tick now => exact congrArg _ (decodeInput_tick 0#8 now)
  | startRx => exact congrArg _ (decodeInput_startRx 0#8 0)
  | stopRx => exact congrArg _ (decodeInput_stopRx 0#8 0)
  | setTimeout v => exact congrArg _ (decodeInput_setTimeout 0#8 v)
  | readBuf i => exact congrArg _ (decodeInput_readBuf i 0)
  | readStatus => exact congrArg _ (decodeInput_readStatus 0#8 0)
  | reset => exact congrArg _ decodeInput_rstPort

/-- Settles O1, constructor by constructor. -/
theorem decodeEncodeIsIdentity : Obligations.DecodeEncodeIsIdentity := fun _ h => decode_encode h

/-! ## Encode of decode, for keys -/

/-- The key of a state and a byte decodes to a well-formed row that encodes back to it: an earlier row of the state takes its
bytes, and a later one is well formed on the bytes that are left. -/
theorem decodeKey_encodes (x : Machine.RxState) (b : Byte) :
    ∃ i, decodeKey (mkKey (Machine.stCode x) b) = .ok i ∧ i.wellFormed = true ∧
      encode i = .key (mkKey (Machine.stCode x) b) := by
  cases x with
  | idle => exact ⟨_, decodeKey_idle b, rfl, rfl⟩
  | awaitStart =>
    refine ⟨_, decodeKey_awaitStart b, ?_⟩
    split
    · subst b
      exact ⟨rfl, rfl⟩
    · exact ⟨wellFormed_rxSkip.2 ‹_›, rfl⟩
  | awaitChecksum => exact ⟨_, decodeKey_awaitChecksum b, rfl, rfl⟩
  | awaitLength =>
    refine ⟨_, decodeKey_awaitLength b, ?_⟩
    split
    · subst b
      exact ⟨rfl, rfl⟩
    split
    · exact ⟨wellFormed_rxLenovf.2 ‹_›, rfl⟩
    · exact ⟨wellFormed_rxLen.2 ⟨‹_›, ‹_›⟩, rfl⟩
  | inData =>
    refine ⟨_, decodeKey_inData b, ?_⟩
    split
    · subst b
      exact ⟨rfl, rfl⟩
    split
    · subst b
      exact ⟨rfl, rfl⟩
    split
    · subst b
      exact ⟨rfl, rfl⟩
    · exact ⟨wellFormed_rxData.2 ⟨‹_›, ‹_›, ‹_›⟩, rfl⟩
  | inEscape => exact ⟨_, decodeKey_inEscape b, rfl, rfl⟩
  | awaitEnd =>
    refine ⟨_, decodeKey_awaitEnd b, ?_⟩
    split
    · subst b
      exact ⟨rfl, rfl⟩
    · exact ⟨wellFormed_rxNoend.2 ‹_›, rfl⟩
  | unused7 => exact ⟨_, decodeKey_unused7 b, rfl, rfl⟩

/-- Every key is that of a state and a byte (R56). -/
theorem exists_mkKey_stCode (k : Key) : ∃ x b, mkKey (Machine.stCode x) b = k :=
  ⟨Machine.stOfCode (keyState k), keyByte k, by rw [Machine.stCode_stOfCode, mkKey_fields]⟩

/-- Settles O2: the row exists state by state, and a second row with the same key would decode to both, by O1. -/
theorem everyKeyIsExactlyOneRow : Obligations.EveryKeyIsExactlyOneRow := by
  intro k
  obtain ⟨x, b, rfl⟩ := exists_mkKey_stCode k
  obtain ⟨i, hdec, hwf, henc⟩ := decodeKey_encodes x b
  refine ⟨i, hdec, decodeKey_isRxRow hdec, hwf, henc, fun j hj hkey => ?_⟩
  have hjdec : decode (encode j) = .ok j := decode_encode hj
  rw [hkey] at hjdec
  exact Except.ok.inj (hjdec.symm.trans hdec)

/-! ## The words at the ports -/

/-- Settles O3, by the law of each operation code. -/
theorem operationCodesSelectTheOperation : Obligations.OperationCodesSelectTheOperation := fun arg t =>
  ⟨decodeInput_nop arg t, decodeInput_feed arg t, decodeInput_tick arg t, decodeInput_startRx arg t,
    decodeInput_stopRx arg t, decodeInput_setTimeout arg t, decodeInput_readBuf arg t, decodeInput_readStatus arg t,
    fun w => decodeInput_rst w t⟩

/-- Settles O4: each word is its state or operation code and its byte, side by side. -/
theorem sampleWordsDecode : Obligations.SampleWordsDecode :=
  ⟨decodeKey_awaitStart 0xAA#8, decodeKey_awaitLength 0x00#8, decodeKey_awaitLength 251#8, decodeKey_awaitLength 252#8,
    decodeKey_inEscape 0x55#8, decodeInput_feed 0xAA#8 9, decodeInput_readBuf 2#8 0, decodeInput_tick 0xAB#8 151⟩

/-- The fields of an operation word as R66 writes them: the operand shifted over the operation code. -/
theorem mkWord_eq_shiftLeft_or (op : BitVec 3) (arg : Byte) :
    mkWord op arg = ((arg.setWidth 11) <<< 3) ||| op.setWidth 11 :=
  (BitVec.setWidth_eq _).symm.trans BitVec.setWidth_append_eq_shiftLeft_setWidth_or

/-- A presented operation by its word as R66 writes it. -/
theorem mkPort_eq_shiftLeft_or (op : BitVec 3) (arg : Byte) (t : Nat) :
    mkPort op arg t = { rst := false, w := ((arg.setWidth 11) <<< 3) ||| op.setWidth 11, t := t } := by
  rw [mkPort, mkWord_eq_shiftLeft_or]

end Sys2Proof
end

section
/-! The words of test programs and what their pseudo-operations expand to (30_encoding.md R66, R67). -/

namespace Sys2Proof.Machine

/-- Settles O5: a byte operand is shifted over its operation code; the words without one are fixed. -/
theorem notationGivesTheWords : Obligations.NotationGivesTheWords :=
  ⟨fun b t => ⟨mkPort_eq_shiftLeft_or 1#3 b t, mkPort_eq_shiftLeft_or 6#3 b 0, rfl, rfl⟩, rfl, rfl, rfl, rfl, rfl⟩

/-! ## The pseudo-operations (30_encoding.md R67) -/

theorem length_feedsFrom (t d : Nat) (bs : List Byte) : (feedsFrom t d bs).length = bs.length := by
  induction bs generalizing t with
  | nil => rfl
  | cons b bs ih => exact congrArg Nat.succ (ih (t + d))

/-- Each byte is fed `d` after the one before it. -/
theorem getElem?_feedsFrom (t d : Nat) (bs : List Byte) (k : Nat) :
    (feedsFrom t d bs)[k]? = (bs[k]?).map fun b => opFeed b (t + k * d) := by
  induction bs generalizing t k with
  | nil => rfl
  | cons b bs ih =>
    cases k with
    | zero => simp [feedsFrom]
    | succ k =>
      have htime : t + d + k * d = t + (k + 1) * d := by ring
      simp [feedsFrom, ih, htime]

/-- With no time between them, all bytes are fed at one time (43_port_operations.md R113). -/
theorem feedsFrom_zero (t : Nat) (bs : List Byte) : feedsFrom t 0 bs = bs.map fun b => opFeed b t :=
  List.ext_getElem? fun k => by simp [getElem?_feedsFrom]

/-- Settles O6, by the FEED at each index. -/
theorem pseudoOperationsExpand : Obligations.PseudoOperationsExpand := fun t d bs =>
  ⟨length_feedsFrom t d bs, getElem?_feedsFrom t d bs, rfl, congrArg _ (feedsFrom_zero t bs)⟩

end Sys2Proof.Machine
end

section
/-! The output signals: the codes of an event (30_encoding.md R62, R63), and `acc` and `rdata` over all operations (R61,
R64), read off the cases of what an operation can do. -/

namespace Sys2Proof.Machine

/-! ## The codes of an event -/

/-- The codes 6 and 7 of `ev_kind` stand for no error (R63). -/
theorem errCode_lt_six (k : ErrKind) : errCode k < 6#3 := by cases k <;> decide

theorem evCls_ne_three (e : Event) : evCls e ≠ 3#2 := by cases e <;> simp [evCls]

theorem evKind_lt_six (e : Event) : evKind e < 6#3 := by
  cases e with
  | none | ready _ => exact show 0#3 < 6#3 by decide
  | error k => exact errCode_lt_six k

/-- Settles O7: the signals are the rows of the two tables, and no code reaches the unused ones. -/
theorem eventSignalsAreThoseOfTheTables : Obligations.EventSignalsAreThoseOfTheTables :=
  ⟨⟨rfl, rfl, rfl⟩, fun _ => ⟨rfl, rfl, rfl⟩, fun _ => ⟨rfl, rfl⟩, rfl, rfl, rfl, rfl, rfl,
    fun e => ⟨evCls_ne_three e, BitVec.ne_of_lt (evKind_lt_six e),
      fun h7 => absurd (evKind_lt_six e) (by rw [h7]; decide)⟩⟩

/-! ## `acc` and `rdata` -/

/-- A row of the byte stage reads nothing out (R64). -/
theorem RowEffect.rdata_eq {u t : State} {b : Byte} (h : RowEffect u b t) : t.out.rdata = u.out.rdata := by
  cases h <;> rfl

/-- Only RX.IDLE writes `acc` (R61, 42_receive_fsm.md R83). -/
theorem RowEffect.acc_eq {u t : State} {b : Byte} (h : RowEffect u b t) (hst : u.st ≠ .idle) :
    t.out.acc = u.out.acc := by
  cases h with
  | idle h => exact absurd h hst
  | _ => rfl

/-- `acc` is set by a FEED whose byte is taken, and by nothing else (R61). -/
theorem PortEffect.acc_iff {s t : State} {i : Instr} (h : PortEffect s i t) :
    t.out.acc = true ↔ (∃ b now, i = .feed b now) ∧ s.st ≠ .idle := by
  cases h with
  | feedIdle b now hst => exact iff_of_false nofun fun hfeed => hfeed.2 hst
  | feedTimeout b now ht => exact iff_of_true rfl ⟨⟨b, now, rfl⟩, (st_of_timedOut ht).1⟩
  | feedRow b now t hst _ _ hr => exact iff_of_true (hr.acc_eq hst) ⟨⟨b, now, rfl⟩, hst⟩
  | _ => exact iff_of_false nofun nofun

/-- Only the two reads read anything out (R64). -/
theorem PortEffect.rdata_eq_zero {s t : State} {i : Instr} (h : PortEffect s i t) (hbuf : ∀ a, i ≠ .readBuf a)
    (hstatus : i ≠ .readStatus) : t.out.rdata = 0#32 := by
  cases h with
  | readBuf a _ => exact absurd rfl (hbuf a)
  | readStatus _ => exact absurd rfl hstatus
  | feedRow _ _ _ _ _ _ hr => exact hr.rdata_eq
  | _ => rfl

/-- Settles O30, over the cases of what an operation can do. -/
theorem outputsOfEveryOperation : Obligations.OutputsOfEveryOperation := fun _ _ _ hi h =>
  ⟨(exec_effect hi h).acc_iff, (exec_effect hi h).rdata_eq_zero⟩

end Sys2Proof.Machine
end

section
/-! The checksum (40_checksum.md R69 to R74). One idea carries all four statements: a round distributes over exclusive or
(`crc8Bit_xor`), so a fold depends on `c ^ b` alone, and a round with no data loses nothing, so a fold gives 0x00 exactly when
the byte cancels the register. A burst over two bytes is then one byte folded in late, followed by rounds with no data. -/

namespace Sys2Proof.Machine

/-! ## The rounds of the bit loop -/

/-- The rounds distribute over exclusive or. -/
theorem crc8Rounds_xor (n : Nat) (c c' b b' : Byte) :
    crc8Rounds n (c ^^^ c') (b ^^^ b') = crc8Rounds n c b ^^^ crc8Rounds n c' b' := by
  induction n generalizing c c' b b' with
  | zero => rfl
  | succ n ih => simp only [crc8Rounds, crc8Bit_xor, BitVec.ushiftRight_xor_distrib, ih]

theorem crc8Rounds_add (m n : Nat) (c b : Byte) :
    crc8Rounds (m + n) c b = crc8Rounds n (crc8Rounds m c b) (b >>> m) := by
  induction m generalizing c b with
  | zero => simp [crc8Rounds]
  | succ m ih => rw [Nat.add_right_comm, crc8Rounds, crc8Rounds, ih, ← BitVec.shiftRight_add, Nat.add_comm 1 m]

/-- A byte that agrees with the register takes the shift alone in every round. -/
theorem crc8Rounds_self (n : Nat) (c : Byte) : crc8Rounds n c c = c >>> n := by
  induction n generalizing c with
  | zero => simp [crc8Rounds]
  | succ n ih => rw [crc8Rounds, show crc8Bit c c = c >>> 1 by simp [crc8Bit], ih, ← BitVec.shiftRight_add, Nat.add_comm]

/-- `n` rounds read the low `n` bits of the byte and no others. -/
theorem crc8Rounds_congr {n : Nat} {b b' : Byte} (c : Byte) (h : ∀ k < n, b.getLsbD k = b'.getLsbD k) :
    crc8Rounds n c b = crc8Rounds n c b' := by
  induction n generalizing c b b' with
  | zero => rfl
  | succ n ih =>
    have hbit : crc8Bit c b = crc8Bit c b' := by simp only [crc8Bit, BitVec.getLsbD_xor, h 0 n.succ_pos]
    have hrest : ∀ k < n, (b >>> 1).getLsbD k = (b' >>> 1).getLsbD k := fun k hk => by
      simpa only [BitVec.getLsbD_ushiftRight] using h (1 + k) (by omega)
    rw [crc8Rounds, crc8Rounds, hbit, ih _ hrest]

/-- A round with no data loses nothing: the polynomial's bit 7 marks the rounds that folded it in. -/
theorem crc8Bit_zero_eq_zero_iff (c : Byte) : crc8Bit c 0x00#8 = 0x00#8 ↔ c = 0x00#8 := by
  refine ⟨fun h => ?_, fun h => by subst h; rfl⟩
  rw [crc8Bit_eq, BitVec.xor_zero, BitVec.xor_eq_zero_iff] at h
  cases h0 : c.getLsbD 0 with
  | true =>
    have h7 : (c >>> 1).getLsbD 7 = true := by rw [h, h0]; rfl
    simp at h7
  | false =>
    have hhigh : c >>> 1 = 0x00#8 := by rw [h, h0]; rfl
    refine BitVec.eq_of_getLsbD_eq fun k _ => ?_
    cases k with
    | zero => exact h0
    | succ k => simpa [Nat.add_comm 1 k] using congrArg (·.getLsbD k) hhigh

theorem crc8Rounds_zero_eq_zero_iff (n : Nat) (c : Byte) : crc8Rounds n c 0x00#8 = 0x00#8 ↔ c = 0x00#8 := by
  induction n generalizing c with
  | zero => rfl
  | succ n ih => rw [crc8Rounds, BitVec.zero_ushiftRight, ih, crc8Bit_zero_eq_zero_iff]

/-! ## The fold of one byte and the table -/

theorem crc8Step_xor (c c' b b' : Byte) : crc8Step (c ^^^ c') (b ^^^ b') = crc8Step c b ^^^ crc8Step c' b' :=
  crc8Rounds_xor 8 c c' b b'

theorem crc8Step_self (c : Byte) : crc8Step c c = 0x00#8 :=
  (crc8Rounds_self 8 c).trans (BitVec.ushiftRight_eq_zero (Nat.le_refl 8))

/-- A fold depends on the exclusive or of the register and the byte alone. -/
theorem crc8Step_congr_xor {c c' b b' : Byte} (h : c ^^^ b = c' ^^^ b') : crc8Step c b = crc8Step c' b' := by
  have hmix : c ^^^ c' = b ^^^ b' := by
    rw [← BitVec.xor_eq_zero_iff] at h ⊢
    rw [← h]
    ac_rfl
  rw [← BitVec.xor_eq_zero_iff, ← crc8Step_xor, hmix, crc8Step_self]

theorem crc8Step_eq_zero_iff (c b : Byte) : crc8Step c b = 0x00#8 ↔ c = b := by
  have hmix : crc8Step c b = crc8Step (c ^^^ b) 0x00#8 := crc8Step_congr_xor (BitVec.xor_zero).symm
  rw [hmix, crc8Step, crc8Rounds_zero_eq_zero_iff, BitVec.xor_eq_zero_iff]

/-- The transcribed table lists the folds into 0x00, in order (R74): the 256 entries, evaluated. -/
theorem crcTable_eq_map_crc8Step :
    crcTable = (List.range 256).map fun x => (crc8Step 0x00#8 (BitVec.ofNat 8 x)).toNat := by decide +kernel

theorem crcTableAt_eq_crc8Step (x : Byte) : crcTableAt x = crc8Step 0x00#8 x := by
  simp [crcTableAt, crcTable_eq_map_crc8Step, List.getD_eq_getElem?_getD, x.isLt]

/-- Settles O35: the fold of `b` into `c` is that of `c ^ b` into 0x00, which the table lists. -/
theorem crcStepIsTheTable : Obligations.CrcStepIsTheTable := fun c b => by
  rw [crcTableAt_eq_crc8Step]
  exact crc8Step_congr_xor (BitVec.zero_xor).symm

/-! ## The fold of a list -/

/-- A run of zeros leaves the register 0x00 if it was, and only then. -/
theorem crc8From_zeros_eq_zero_iff (c : Byte) (n : Nat) :
    crc8From c (List.replicate n 0x00#8) = 0x00#8 ↔ c = 0x00#8 := by
  induction n generalizing c with
  | zero => rfl
  | succ n ih => rw [List.replicate_succ, crc8From_cons, ih, crc8Step_eq_zero_iff]

theorem crc8_zeros (n : Nat) : crc8 (List.replicate n 0x00#8) = 0x00#8 :=
  (crc8From_zeros_eq_zero_iff Config.crcSeed n).2 rfl

/-- Settles O36: the empty list, the last byte, and a list of zeros. -/
theorem crcOfAListRunsByteByByte : Obligations.CrcOfAListRunsByteByByte :=
  ⟨crc8_nil, crc8_append_singleton, crc8_zeros⟩

/-- Folding lists of equal length distributes over exclusive or. -/
theorem crc8From_zipWith_xor {a b : List Byte} (h : a.length = b.length) (c c' : Byte) :
    crc8From (c ^^^ c') (List.zipWith (· ^^^ ·) a b) = crc8From c a ^^^ crc8From c' b := by
  induction a generalizing b c c' with
  | nil => cases b with
    | nil => rfl
    | cons y b => simp at h
  | cons x a ih => cases b with
    | nil => simp at h
    | cons y b =>
      rw [List.zipWith_cons_cons, crc8From_cons, crc8Step_xor, ih (Nat.succ.inj h), crc8From_cons, crc8From_cons]

theorem crc8_zipWith_xor {a b : List Byte} (h : a.length = b.length) :
    crc8 (List.zipWith (· ^^^ ·) a b) = crc8 a ^^^ crc8 b :=
  crc8From_zipWith_xor h Config.crcSeed Config.crcSeed

/-- Settles O37, by induction over the two lists. -/
theorem crcIsLinear : Obligations.CrcIsLinear := fun a b h => by
  rw [crc8_zipWith_xor h]
  exact ⟨rfl, by simp⟩

/-! ## Bursts -/

/-- Zeros before and after an error pattern do not decide whether it is missed. -/
theorem crc8_between_zeros_eq_zero_iff (i j : Nat) (q : List Byte) :
    crc8 (List.replicate i 0x00#8 ++ q ++ List.replicate j 0x00#8) = 0x00#8 ↔ crc8 q = 0x00#8 := by
  have hlead : crc8From Config.crcSeed (List.replicate i 0x00#8) = Config.crcSeed := crc8_zeros i
  rw [crc8, crc8From_append, crc8From_append, crc8From_zeros_eq_zero_iff, hlead, crc8]

/-- The first byte of the window `u` shifted by `sh` bits. -/
theorem window_low (u : Byte) (sh : Nat) : ((u.setWidth 16) <<< sh).extractLsb' 0 8 = u <<< sh := by
  refine BitVec.eq_of_getLsbD_eq fun k hk => ?_
  have hk16 : k < 16 := by omega
  simp [hk16, Bool.and_assoc]

/-- The second byte of the window `u` shifted by `sh` bits. -/
theorem window_high (u : Byte) {sh : Nat} (h : sh ≤ 8) :
    ((u.setWidth 16) <<< sh).extractLsb' 8 8 = u >>> (8 - sh) := by
  refine BitVec.eq_of_getLsbD_eq fun k hk => ?_
  have hk16 : 8 + k < 16 := by omega
  have hpast : ¬ 8 + k < sh := by omega
  have hbit : 8 + k - sh = 8 - sh + k := by omega
  simp [hk, hk16, hpast, hbit]

/-- The window's first byte: `sh` rounds that fold nothing in, then the low bits of `u`. -/
theorem crc8Step_window_low (u : Byte) {sh : Nat} (h : sh ≤ 8) :
    crc8Step 0x00#8 (u <<< sh) = crc8Rounds (8 - sh) 0x00#8 u := by
  have hzero : crc8Rounds sh 0x00#8 (u <<< sh) = 0x00#8 := by
    rw [crc8Rounds_congr (b' := 0x00#8) _ fun k hk => by simp [hk], crc8Rounds_zero_eq_zero_iff]
  calc crc8Rounds 8 0x00#8 (u <<< sh)
      = crc8Rounds (sh + (8 - sh)) 0x00#8 (u <<< sh) := by rw [Nat.add_sub_of_le h]
    _ = crc8Rounds (8 - sh) 0x00#8 (u <<< sh >>> sh) := by rw [crc8Rounds_add, hzero]
    _ = crc8Rounds (8 - sh) 0x00#8 u := crc8Rounds_congr _ fun k hk => by simpa using fun _ => Nat.add_lt_of_lt_sub' hk

/-- The window's second byte: the high bits of `u`, then `8 - sh` rounds with no data. -/
theorem crc8Step_window_high (c u : Byte) {sh : Nat} (h : sh ≤ 8) :
    crc8Step c (u >>> (8 - sh)) = crc8Rounds (8 - sh) (crc8Rounds sh c (u >>> (8 - sh))) 0x00#8 := by
  have hspent : u >>> (8 - sh) >>> sh = 0x00#8 := by
    rw [← BitVec.shiftRight_add, Nat.sub_add_cancel h, BitVec.ushiftRight_eq_zero (Nat.le_refl 8)]
  calc crc8Rounds 8 c (u >>> (8 - sh))
      = crc8Rounds (sh + (8 - sh)) c (u >>> (8 - sh)) := by rw [Nat.add_sub_of_le h]
    _ = crc8Rounds (8 - sh) (crc8Rounds sh c (u >>> (8 - sh))) 0x00#8 := by rw [crc8Rounds_add, hspent]

/-- Over its two bytes a window folds in as the byte `u` does, followed by rounds with no data. -/
theorem crc8_window (u : Byte) {sh : Nat} (h : sh ≤ 8) :
    crc8 [u <<< sh, u >>> (8 - sh)] = crc8Rounds (8 - sh) (crc8Step 0x00#8 u) 0x00#8 := by
  have hbyte : crc8Rounds sh (crc8Rounds (8 - sh) 0x00#8 u) (u >>> (8 - sh)) = crc8Step 0x00#8 u := by
    rw [← crc8Rounds_add, Nat.sub_add_cancel h, crc8Step]
  calc crc8 [u <<< sh, u >>> (8 - sh)]
      = crc8Step (crc8Step 0x00#8 (u <<< sh)) (u >>> (8 - sh)) := rfl
    _ = crc8Rounds (8 - sh) (crc8Step 0x00#8 u) 0x00#8 := by
      rw [crc8Step_window_low u h, crc8Step_window_high _ u h, hbyte]

/-- Settles O38, for payloads of any length: zeros around the burst do not matter, one byte folded into 0x00 is missed only
if it is 0x00, and a window over two bytes is missed only if its 8 bits are. -/
theorem crcDetectsBurstsOfEightBits : Obligations.CrcDetectsBurstsOfEightBits := by
  intro i j u sh hu hsh _
  have hstep : crc8Step 0x00#8 u ≠ 0x00#8 := fun h0 => hu ((crc8Step_eq_zero_iff _ u).1 h0).symm
  rw [window_low, window_high u hsh]
  simp only [ne_eq, crc8_between_zeros_eq_zero_iff, crc8_window u hsh, crc8Rounds_zero_eq_zero_iff]
  exact ⟨hstep, hstep⟩

end Sys2Proof.Machine
end

section
/-! The reference encoder (41_encoder_reference.md R75 to R78): what an empty payload and one over 251 bytes give, how many
bytes a frame has, and that every frame is a segment of 42_receive_fsm.md R98. -/

namespace Sys2Proof.Machine

/-! ## The payload region -/

theorem length_escapeByte (b : Byte) : (escapeByte b).length = 1 + if Config.isReserved b then 1 else 0 := by
  unfold escapeByte
  split <;> rfl

/-- Each reserved byte costs one byte more (41_encoder_reference.md R78). -/
theorem length_escapePayload (q : List Byte) :
    (escapePayload q).length = q.length + (q.filter Config.isReserved).length := by
  induction q with
  | nil => rfl
  | cons b q ih =>
    have hcons : escapePayload (b :: q) = escapeByte b ++ escapePayload q := List.flatMap_cons
    rw [hcons, List.length_append, length_escapeByte, ih, List.length_cons, List.filter_cons]
    split
    · rw [List.length_cons]
      omega
    · omega

/-! ## The frame -/

theorem length_frameBytes (chk len : Byte) (region : List Byte) :
    (frameBytes chk len region).length = 4 + region.length := by
  simp only [frameBytes, List.length_append, List.length_cons, List.length_nil]
  omega

theorem encodeFrame_of_ne_nil {p : List Byte} (h : p ≠ []) :
    encodeFrame p = frameBytes (crc8 (cutPayload p)) (BitVec.ofNat 8 (cutPayload p).length)
      (escapePayload (cutPayload p)) :=
  if_neg (by simpa using h)

/-- A payload longer than 251 bytes is encoded as its first 251 (41_encoder_reference.md R77). -/
theorem encodeFrame_cutPayload (p : List Byte) : encodeFrame (cutPayload p) = encodeFrame p := by
  have hempty : (cutPayload p).isEmpty = p.isEmpty := by cases p <;> rfl
  have hcut : cutPayload (cutPayload p) = cutPayload p := by simp [cutPayload]
  rw [encodeFrame, hempty, hcut, encodeFrame]

theorem length_encodeFrame {p : List Byte} (h : p ≠ []) :
    (encodeFrame p).length = 4 + (cutPayload p).length + ((cutPayload p).filter Config.isReserved).length := by
  rw [encodeFrame_of_ne_nil h, length_frameBytes, length_escapePayload, Nat.add_assoc]

/-- Settles O39: a non-empty payload is cut to 1 to 251 bytes, of which none to all are reserved. -/
theorem encoderLengthAndTruncation : Obligations.EncoderLengthAndTruncation := by
  refine ⟨rfl, fun p => (encodeFrame_cutPayload p).symm, fun p h => ?_⟩
  have hcut : 1 ≤ (cutPayload p).length ∧ (cutPayload p).length ≤ 251 := by
    have hpos := List.length_pos_of_ne_nil h
    rw [cutPayload, List.length_take, Config.maxPayload_eq]
    omega
  have hreserved := List.length_filter_le Config.isReserved (cutPayload p)
  have hcount := length_encodeFrame h
  exact ⟨hcount, by omega, by omega⟩

/-! ## A frame as a segment -/

/-- The unit the encoder writes for a payload byte: escaped exactly if it is reserved (41_encoder_reference.md R79). -/
def encodedUnit (b : Byte) : WireUnit := if Config.isReserved b then .escaped b else .plain b

theorem bytes_encodedUnit (b : Byte) : (encodedUnit b).bytes = escapeByte b := by
  unfold encodedUnit escapeByte
  split <;> rfl

theorem payload_encodedUnit (b : Byte) : (encodedUnit b).payload = b := by
  unfold encodedUnit
  split <;> rfl

theorem valid_encodedUnit (b : Byte) : (encodedUnit b).valid = true := by
  unfold encodedUnit
  split
  · rfl
  · simpa [WireUnit.valid] using ‹¬Config.isReserved b = true›

theorem map_payload_encodedUnit (p : List Byte) : (p.map encodedUnit).map WireUnit.payload = p := by
  simp [Function.comp_def, payload_encodedUnit]

/-- A frame that is not cut is the segment of its own units and checksum. -/
theorem encodeFrame_eq_segment {p : List Byte} (h : p ≠ []) (hcap : p.length ≤ 251) :
    encodeFrame p = segment (crc8 p) (p.map encodedUnit) := by
  have hcut : cutPayload p = p := List.take_of_length_le hcap
  have hregion : (p.map encodedUnit).flatMap WireUnit.bytes = escapePayload p := by
    simp [escapePayload, List.flatMap_map, bytes_encodedUnit]
  rw [encodeFrame_of_ne_nil h, hcut, segment, hregion, List.length_map]

end Sys2Proof.Machine
end

section
/-! Bytes fed in time. `Takes` follows the byte stage row by row for any times, and `Takes.run` turns it once into a run of
the machine whose times leave no gap longer than `tmo` (41_encoder_reference.md R80). -/

namespace Sys2Proof.Machine

/-! ## Times with no timeout -/

/-- Times are compared modulo 2^TS_W, so reducing the operands first changes nothing (43_port_operations.md R103). -/
theorem elapsed_mod (p : Params) (now last : Nat) :
    elapsed p (now % 2 ^ p.tsW) (last % 2 ^ p.tsW) = elapsed p now last := by
  rw [elapsed, elapsed, Int.natCast_mod, Int.natCast_mod, ← Int.sub_emod]

/-- No byte fed at the times `ts` from `s` comes too late: the first by the timeout test in `s`, each other by its gap. -/
structure InTime (s : State) (ts : List Nat) : Prop where
  first : ∀ t ∈ ts.head?, timedOut s (t % 2 ^ s.params.tsW) = false
  gaps : GapsWithin s.params s.tmo ts

/-- With no frame in progress the first byte is never late (43_port_operations.md R115). -/
theorem InTime.of_not_inProgress {s : State} {ts : List Nat} (hs : inProgress s = false)
    (h : GapsWithin s.params s.tmo ts) : InTime s ts :=
  ⟨fun _ _ => timedOut_not_inProgress _ hs, h⟩

/-- The state in which the byte stage runs on a byte presented at `now` and not late (43_port_operations.md R104). -/
def State.takenAt (s : State) (now : Nat) : State :=
  { s with
    inputs := [], lastT := now % 2 ^ s.params.tsW, out := { acc := true, ev := .none, rdata := 0#32 } }

theorem RowEffect.lastT_tmo {u t : State} {b : Byte} (h : RowEffect u b t) : t.lastT = u.lastT ∧ t.tmo = u.tmo := by
  cases h <;> exact ⟨rfl, rfl⟩

/-- After a byte the next one's gap is its timeout test, since `last_t` is the time of the byte. -/
theorem InTime.tail {s u : State} {b : Byte} {t : Nat} {ts : List Nat} (h : InTime s (t :: ts))
    (hr : RowEffect (s.takenAt t) b u) : InTime u ts := by
  have hparams : u.params = s.params := hr.params_inputs.1
  have hlast : u.lastT = t % 2 ^ s.params.tsW := hr.lastT_tmo.1
  have htmo : u.tmo = s.tmo := hr.lastT_tmo.2
  constructor
  case first =>
    intro now hnow
    cases ts with
    | nil => cases hnow
    | cons now ts =>
      cases hnow
      have hgap : elapsed s.params now t ≤ s.tmo := h.gaps 0 (by simp)
      rw [timedOut_false_iff, hparams, hlast, htmo, elapsed_mod]
      exact fun hlate => hgap.not_gt hlate.2
  case gaps =>
    rw [hparams, htmo]
    exact fun k hk => h.gaps (k + 1) (Nat.succ_lt_succ hk)

/-! ## Byte by byte -/

theorem RowEffect.st_ne_unused7 {u t : State} {b : Byte} (h : RowEffect u b t) : u.st ≠ .unused7 := by
  intro h7
  cases h <;> simp_all

/-- A FEED in time performs the row of its byte. -/
theorem step_feed_of_rowEffect {s t : State} {b : Byte} {now : Nat} (hidle : s.st ≠ .idle)
    (htime : timedOut s (now % 2 ^ s.params.tsW) = false) (hr : RowEffect (s.takenAt now) b t) :
    step (s.present (opFeed b now)) = .next t := by
  rw [step_present, opFeed, decodeInput_feed]
  exact (PortEffect.feedRow (s := { s with inputs := [] }) b now t hidle hr.st_ne_unused7 htime hr).exec_eq

/-- Fed the bytes `bs` from `s`, none of them late, the byte stage gives the events `es` and ends in a state with `Q`,
whatever the times are. -/
inductive Takes : State → List Byte → List Event → (State → Prop) → Prop where
  | nil {s : State} {Q : State → Prop} (h : Q s) : Takes s [] [] Q
  | cons {s : State} {b : Byte} {bs : List Byte} {e : Event} {es : List Event} {Q : State → Prop} {t : Nat → State}
      (hidle : s.st ≠ .idle) (hr : ∀ now, RowEffect (s.takenAt now) b (t now)) (he : ∀ now, (t now).out.ev = e)
      (h : ∀ now, Takes (t now) bs es Q) : Takes s (b :: bs) (e :: es) Q

namespace Takes

/-- A single byte. -/
theorem one {s : State} {b : Byte} {e : Event} {Q : State → Prop} {t : Nat → State} (hidle : s.st ≠ .idle)
    (hr : ∀ now, RowEffect (s.takenAt now) b (t now)) (he : ∀ now, (t now).out.ev = e) (hQ : ∀ now, Q (t now)) :
    Takes s [b] [e] Q :=
  .cons hidle hr he fun now => .nil (hQ now)

/-- What holds after the first bytes is where the rest start from. -/
theorem append {s : State} {bs cs : List Byte} {es fs : List Event} {P Q : State → Prop} (h : Takes s bs es P)
    (hrest : ∀ t, P t → Takes t cs fs Q) : Takes s (bs ++ cs) (es ++ fs) Q := by
  induction h with
  | nil hP => exact hrest _ hP
  | cons hidle hr he _ ih => exact .cons hidle hr he fun now => ih now hrest

/-- The run of the machine, one FEED per byte, at times of which none is late. -/
theorem run {s : State} {bs : List Byte} {es : List Event} {Q : State → Prop} (h : Takes s bs es Q) {ts : List Nat}
    (hlen : ts.length = bs.length) (htime : InTime s ts) :
    ∃ tr, runTrace s (feedsAt bs ts) = some tr ∧ events tr = es ∧ Q (finalState s tr) := by
  induction h generalizing ts with
  | nil hQ => exact ⟨[], rfl, rfl, hQ⟩
  | @cons s b bs e es Q t hidle hr he _ ih =>
    cases ts with
    | nil => cases hlen
    | cons now ts =>
      have hstep := step_feed_of_rowEffect hidle (htime.first now rfl) (hr now)
      obtain ⟨trs, hrun, hevents, hQ⟩ := ih now (Nat.succ.inj hlen) (htime.tail (hr now))
      exact ⟨_, runTrace_cons.2 ⟨t now, trs, hstep, hrun, rfl⟩, congrArg₂ List.cons (he now) hevents, hQ⟩

end Takes

end Sys2Proof.Machine
end

section
/-! A segment is decoded (42_receive_fsm.md R98), and with it every frame of the encoder (41_encoder_reference.md R80). The
header opens an empty payload region, each unit adds its payload byte to it, by induction over the units, and END_MARK
compares the checksum with that of the bytes received. -/

namespace Sys2Proof.Machine

/-! ## The payload region -/

/-- In a frame with the fields `c` and `n`, the payload bytes `q` have been received. -/
structure Receiving (s : State) (c n : Byte) (q : List Byte) : Prop where
  chk : s.chk = c
  len : s.len = n
  stored : s.stored = q
  crc : s.crc = crc8 q

/-- Whether payload bytes are missing after `q` (42_receive_fsm.md R82). -/
def regionState (n : Byte) (q : List Byte) : RxState := if q.length = n.toNat then .awaitEnd else .inData

theorem regionState_of_lt {n : Byte} {q : List Byte} (h : q.length < n.toNat) : regionState n q = .inData :=
  if_neg h.ne

theorem regionState_of_eq {n : Byte} {q : List Byte} (h : q.length = n.toNat) : regionState n q = .awaitEnd := if_pos h

namespace Receiving

variable {s : State} {c n : Byte} {q : List Byte}

theorem pos_toNat (h : Receiving s c n q) : s.pos.toNat = q.length := by
  simp [← h.stored, State.stored]

/-- The parse state, the time and the outputs are no part of what has been received. -/
theorem of_takenAt (h : Receiving s c n q) (now : Nat) (x : RxState) :
    Receiving { s.takenAt now with st := x } c n q :=
  ⟨h.chk, h.len, h.stored, h.crc⟩

theorem appended (h : Receiving s c n q) (b : Byte) (hcap : q.length < 251) :
    Receiving (s.appended b) c n (q ++ [b]) where
  chk := h.chk
  len := h.len
  stored := by rw [State.stored_appended b (h.pos_toNat.trans_lt hcap), h.stored]
  crc := by rw [State.appended_crc, h.crc, crc8_append_singleton]

/-- The completion test counts the byte it appends (42_receive_fsm.md R82). -/
theorem st_appended (h : Receiving s c n q) (b : Byte) (hcap : q.length < 251) :
    (s.appended b).st = regionState n (q ++ [b]) := by
  have hpos : (s.pos + 1#8).toNat = q.length + 1 := by
    rw [toNat_add_one_of_lt_bufCap (h.pos_toNat.trans_lt hcap), h.pos_toNat]
  have hdone : s.pos + 1#8 = n ↔ q.length + 1 = n.toNat := by rw [← BitVec.toNat_inj, hpos]
  simp [regionState, h.len, hdone]

/-- READ_BUF finds the bytes received (20_memory.md R35). -/
theorem read_eq (h : Receiving s c n q) (hcap : q.length ≤ 251) {k : Nat} (hk : k < q.length) :
    s.buf.read k = q.getD k 0x00#8 := by
  have hcell : s.stored.getD k 0x00#8 = s.buf.cell k := by
    simp [State.stored, h.pos_toNat, hk]
  rw [Memory.read, if_pos (hk.trans_le hcap), ← hcell, h.stored]

end Receiving

/-! ## The three parts of a segment -/

/-- START_MARK, CHECKSUM and a LENGTH in range open an empty payload region (42_receive_fsm.md R84, R86, R89). -/
theorem takes_header {s : State} {n : Byte} (c : Byte) (hst : s.st = .awaitStart) (h0 : n ≠ 0x00#8)
    (hcap : n.toNat ≤ 251) :
    Takes s [Config.startMark, c, n] (List.replicate 3 .none) fun t => t.st = .inData ∧ Receiving t c n [] :=
  .cons (by simp [hst]) (fun _ => .start hst rfl) (fun _ => rfl) fun _ =>
    .cons nofun (fun _ => .chk rfl) (fun _ => rfl) fun _ =>
      .one nofun (fun _ => .len rfl h0 hcap) (fun _ => rfl) fun _ => ⟨rfl, rfl, rfl, rfl, rfl⟩

/-- A unit adds its payload byte (42_receive_fsm.md R90, R93, R94). -/
theorem takes_unit {s : State} {c n : Byte} {q : List Byte} {u : WireUnit} (hu : u.valid = true)
    (hst : s.st = .inData) (h : Receiving s c n q) (hcap : q.length < 251) :
    Takes s u.bytes (List.replicate u.bytes.length .none) fun t =>
      t.st = regionState n (q ++ [u.payload]) ∧ Receiving t c n (q ++ [u.payload]) := by
  have hroom : s.pos.toNat < 251 := h.pos_toNat.trans_lt hcap
  cases u with
  | plain x =>
    have hx : Config.isReserved x = false := by simpa [WireUnit.valid] using hu
    refine .one (by simp [hst]) (fun _ => .data hst hx hroom) (fun _ => rfl) fun now => ?_
    have hnow := h.of_takenAt now s.st
    exact ⟨hnow.st_appended x hcap, hnow.appended x hcap⟩
  | escaped y =>
    refine .cons (by simp [hst]) (fun _ => .esc hst rfl) (fun _ => rfl) fun t =>
      .one nofun (fun _ => .edata rfl hroom) (fun _ => rfl) fun now => ?_
    have hnow := (h.of_takenAt t .inEscape).of_takenAt now .inEscape
    exact ⟨hnow.st_appended y hcap, hnow.appended y hcap⟩

/-- The units of a region whose length they fill, by induction over them. -/
theorem takes_units {s : State} {c n : Byte} {q : List Byte} {us : List WireUnit} (hus : ∀ u ∈ us, u.valid = true)
    (hst : s.st = regionState n q) (h : Receiving s c n q) (hlen : q.length + us.length = n.toNat)
    (hcap : n.toNat ≤ 251) :
    Takes s (us.flatMap WireUnit.bytes) (List.replicate (us.flatMap WireUnit.bytes).length .none) fun t =>
      t.st = .awaitEnd ∧ Receiving t c n (q ++ us.map WireUnit.payload) := by
  induction us generalizing s q with
  | nil => exact .nil ⟨hst.trans (regionState_of_eq hlen), by simpa using h⟩
  | cons u us ih =>
    obtain ⟨hu, hus⟩ := List.forall_mem_cons.1 hus
    rw [List.length_cons] at hlen
    have hdata : s.st = .inData := hst.trans (regionState_of_lt (by omega))
    rw [List.flatMap_cons, List.length_append, List.replicate_add]
    refine (takes_unit hu hdata h (by omega)).append fun t ⟨ht, hrec⟩ => ?_
    have hlen' : (q ++ [u.payload]).length + us.length = n.toNat := by
      rw [List.length_append, List.length_singleton]
      omega
    simpa using ih hus ht hrec hlen'

/-- END_MARK delivers the bytes received or reports the checksum (42_receive_fsm.md R95); the buffer keeps them. -/
theorem takes_endMark {s : State} {c n : Byte} {q : List Byte} (hst : s.st = .awaitEnd) (h : Receiving s c n q)
    (hcap : q.length ≤ 251) :
    Takes s [Config.endMark] [if crc8 q = c then .ready n else .error .crc] fun t =>
      t.st = .awaitStart ∧ ∀ k < q.length, t.buf.read k = q.getD k 0x00#8 := by
  have hread : ∀ k < q.length, s.buf.read k = q.getD k 0x00#8 := fun _ hk => h.read_eq hcap hk
  by_cases hc : crc8 q = c
  · have heq : s.crc = s.chk := by rw [h.crc, h.chk, hc]
    exact .one (by simp [hst]) (fun _ => .ready hst rfl heq) (fun _ => by simp [hc, State.takenAt, h.len])
      fun _ => ⟨rfl, hread⟩
  · have hne : s.crc ≠ s.chk := by rwa [h.crc, h.chk]
    exact .one (by simp [hst]) (fun _ => .crcError hst rfl hne) (fun _ => by simp [hc]) fun _ => ⟨rfl, hread⟩

/-! ## The whole segment -/

/-- A segment gives no event until its END_MARK, which gives READY or ERROR(CRC) (42_receive_fsm.md R98). -/
theorem takes_segment {s : State} (c : Byte) {us : List WireUnit} (hst : s.st = .awaitStart) (h1 : 1 ≤ us.length)
    (hcap : us.length ≤ 251) (hus : ∀ u ∈ us, u.valid = true) :
    Takes s (segment c us)
      (List.replicate ((segment c us).length - 1) .none ++
        [if crc8 (us.map WireUnit.payload) = c then .ready (BitVec.ofNat 8 us.length) else .error .crc])
      fun t => t.st = .awaitStart ∧
        ∀ k < us.length, t.buf.read k = (us.map WireUnit.payload).getD k 0x00#8 := by
  have hn : (BitVec.ofNat 8 us.length).toNat = us.length := by
    rw [BitVec.toNat_ofNat]
    omega
  have h0 : BitVec.ofNat 8 us.length ≠ 0x00#8 := fun h =>
    absurd (hn.symm.trans (congrArg BitVec.toNat h)) (Nat.ne_of_gt h1)
  have hopen : regionState (BitVec.ofNat 8 us.length) [] = .inData := regionState_of_lt (by rw [hn]; exact h1)
  have hsilent : (segment c us).length - 1 = 3 + (us.flatMap WireUnit.bytes).length := by
    rw [segment, length_frameBytes]
    omega
  rw [hsilent, List.replicate_add, segment, frameBytes]
  have hheader := takes_header c hst h0 (hn.trans_le hcap)
  have hregion := hheader.append fun t ⟨ht, hrec⟩ =>
    takes_units hus (ht.trans hopen.symm) hrec (by simp [hn]) (hn.trans_le hcap)
  exact hregion.append fun t ⟨ht, hrec⟩ => by simpa using takes_endMark ht hrec (by simpa using hcap)

/-- A frame that is not cut is delivered with its length (41_encoder_reference.md R80). -/
theorem takes_encodeFrame {s : State} {p : List Byte} (hst : s.st = .awaitStart) (h1 : 1 ≤ p.length)
    (hcap : p.length ≤ 251) :
    Takes s (encodeFrame p)
      (List.replicate ((encodeFrame p).length - 1) .none ++ [.ready (BitVec.ofNat 8 p.length)])
      fun t => t.st = .awaitStart ∧ ∀ k < p.length, t.buf.read k = p.getD k 0x00#8 := by
  have hvalid : ∀ u ∈ p.map encodedUnit, u.valid = true := List.forall_mem_map.2 fun b _ => valid_encodedUnit b
  have hseg := takes_segment (crc8 p) (us := p.map encodedUnit) hst (by simpa using h1) (by simpa using hcap) hvalid
  rw [encodeFrame_eq_segment (List.length_pos_iff.1 h1) hcap]
  simpa only [map_payload_encodedUnit, List.length_map, if_true] using hseg

/-- Settles O40: no byte of the frame is late, the first since no frame is in progress yet. -/
theorem encodedFrameIsDelivered : Obligations.EncodedFrameIsDelivered := by
  intro s p ts hst h1 hcap hlen hgaps
  have hscan : inProgress s = false := by simp [inProgress, hst]
  rw [hlen]
  exact (takes_encodeFrame hst h1 hcap).run hlen (.of_not_inProgress hscan hgaps)

end Sys2Proof.Machine
end

section
/-! The rows of the byte stage one by one (42_receive_fsm.md R83 to R97): the keys that select a row, by what the key decoder
gives in the row's state, and the row's next state, which is its pseudocode. -/

namespace Sys2Proof.Machine

/-- Settles O16: the key's state selects the row, and a FEED in IDLE ends with the clear output record. -/
theorem idleRowTakesNoByte : Obligations.IdleRowTakesNoByte := fun _ b =>
  ⟨decodeKey_idle b, rfl, fun now hst => execFeed_idle b now hst⟩

/-- Settles O17: the byte conditions are those of the well-formed rows, each of which is the row of its key. -/
theorem headerRowsAdvanceTheParser : Obligations.HeaderRowsAdvanceTheParser := by
  intro s b
  refine ⟨⟨decodeKey_awaitStart 0xAA#8, rfl⟩, ⟨fun hb => ?skip, rfl⟩, ⟨decodeKey_awaitChecksum b, rfl⟩,
    ⟨fun h1 hcap => ?len, rfl⟩, ⟨decodeKey_inData 0x5C#8, rfl⟩⟩
  case skip => exact decode_encode (wellFormed_rxSkip.2 hb)
  case len =>
    have h0 : b ≠ 0x00#8 := by bv_omega
    exact decode_encode (wellFormed_rxLen.2 ⟨h0, hcap.not_gt⟩)

/-- Settles O18: every error row is the frame reset with its kind. -/
theorem errorRowsRaiseAndResetTheFrame : Obligations.ErrorRowsRaiseAndResetTheFrame := fun _ b =>
  ⟨⟨decodeKey_awaitLength 0x00#8, rfl⟩,
    ⟨fun hb => decode_encode (i := .rxLenovf b) (wellFormed_rxLenovf.2 hb), rfl⟩,
    ⟨decodeKey_inData 0x55#8, rfl⟩, ⟨decodeKey_inData 0xAA#8, rfl⟩,
    ⟨fun hb => decode_encode (i := .rxNoend b) (wellFormed_rxNoend.2 hb), rfl⟩⟩

/-- Settles O19: both rows are the append, and the buffer it leaves holds its byte at `pos`. -/
theorem dataRowsAppendTheByte : Obligations.DataRowsAppendTheByte := by
  intro s b
  refine ⟨fun hesc hend hstart => ?key, decodeKey_inEscape b, fun hp => ?append⟩
  case key => exact decode_encode (i := .rxData b) (wellFormed_rxData.2 ⟨hstart, hend, hesc⟩)
  case append =>
    have happend : append b s = .next (s.appended b) := append_next hp
    refine ⟨s.buf.store s.pos.toNat b, ?_, fun a => Memory.cell_store s.buf s.pos.toNat a b⟩
    rintro i (rfl | rfl)
    · exact happend
    · exact happend

/-- Settles O21, by the two outcomes of the checksum comparison. -/
theorem endRowComparesTheChecksum : Obligations.EndRowComparesTheChecksum := fun _ =>
  ⟨decodeKey_awaitEnd 0x55#8, fun hc => if_pos (by simp [crcOk, hc]), fun hc => if_neg (by simp [crcOk, hc])⟩

/-- Settles O22: FEED tests the state itself, and the other port operations answer through `inKnownState`. -/
theorem unusedStateIsRefused : Obligations.UnusedStateIsRefused := by
  refine fun s b => ⟨decodeKey_unused7 b, rfl, fun i hst hi hreset => ?_⟩
  cases i with
  | feed b now => exact execFeed_unused7 b now hst
  | reset => exact absurd rfl hreset
  | nop | tick _ | startRx | stopRx | setTimeout _ | readBuf _ | readStatus => exact inKnownState_unused7 _ hst
  | rxIdle _ | rxStart | rxSkip _ | rxChk _ | rxLen0 | rxLenovf _ | rxLen _ | rxEsc | rxDend | rxDstart | rxData _
  | rxEdata _ | rxEnd | rxNoend _ | rxBadstate _ => cases hi

end Sys2Proof.Machine
end

section
/-! What reception accepts and what it skips, over runs of bytes from AWAIT_START (42_receive_fsm.md R98, R99). -/

namespace Sys2Proof.Machine

theorem inProgress_of_awaitStart {s : State} (hst : s.st = .awaitStart) : inProgress s = false := by
  simp [inProgress, hst]

/-- Settles O41: no byte of the segment is late, the first since no frame is in progress yet. -/
theorem segmentIsDecoded : Obligations.SegmentIsDecoded := by
  intro s c us ts hst h1 hcap hus hlen hgaps
  rw [hlen]
  exact (takes_segment c hst h1 hcap hus).run hlen (.of_not_inProgress (inProgress_of_awaitStart hst) hgaps)

/-! ## Bytes without a START_MARK -/

/-- From AWAIT_START, where no byte is late, bytes other than START_MARK write the time and the outputs alone
(42_receive_fsm.md R85). -/
theorem run_without_startMark {s : State} {bs : List Byte} {ts : List Nat} (hst : s.st = .awaitStart)
    (hlen : ts.length = bs.length) (hbs : ∀ b ∈ bs, b ≠ Config.startMark) :
    ∃ tr, runTrace s (feedsAt bs ts) = some tr ∧ events tr = List.replicate bs.length .none ∧
      ∃ l xs o, finalState s tr = { s with lastT := l, inputs := xs, out := o } := by
  induction bs generalizing s ts with
  | nil => exact ⟨[], rfl, rfl, s.lastT, s.inputs, s.out, rfl⟩
  | cons b bs ih =>
    obtain ⟨hb, hbs⟩ := List.forall_mem_cons.1 hbs
    cases ts with
    | nil => cases hlen
    | cons now ts =>
      have hstep : step (s.present (opFeed b now)) = .next (s.takenAt now) :=
        step_feed_of_rowEffect (by simp [hst]) (timedOut_not_inProgress _ (inProgress_of_awaitStart hst))
          (.skip hst hb)
      obtain ⟨trs, hrun, hevents, hfinal⟩ := ih (s := s.takenAt now) hst (Nat.succ.inj hlen) hbs
      exact ⟨_, runTrace_cons.2 ⟨s.takenAt now, trs, hstep, hrun, rfl⟩, congrArg (List.cons _) hevents, hfinal⟩

/-- Settles O43: neither the time nor the outputs are among what is claimed to be kept. -/
theorem garbageIsSkipped : Obligations.GarbageIsSkipped := by
  intro s bs ts hst hlen hbs
  obtain ⟨tr, hrun, hevents, l, xs, o, hfinal⟩ := run_without_startMark hst hlen hbs
  refine ⟨tr, hrun, hevents, ?_⟩
  rw [hfinal]
  exact ⟨hst, rfl, rfl, rfl, rfl, rfl, rfl⟩

end Sys2Proof.Machine
end

section
/-! READY is emitted for a segment and for nothing else (42_receive_fsm.md R98, the other direction). `Attempt` says which
bytes of a segment have been taken, parse state by parse state; a byte in time lengthens the attempt or ends it, and only a
whole segment ends it with READY. A run is then followed byte by byte, each frame attempt from its START_MARK. -/

namespace Sys2Proof.Machine

/-! ## The payload region of an attempt -/

/-- A LENGTH in range has been taken and the units `us` after it. -/
structure Region (s : State) (us : List WireUnit) : Prop where
  positive : 1 ≤ s.len.toNat
  cap : s.len.toNat ≤ 251
  valid : ∀ u ∈ us, u.valid = true
  receiving : Receiving s s.chk s.len (us.map WireUnit.payload)

/-- The bytes that opened the payload region of `s` and those of the units `us`. -/
def regionBytes (s : State) (us : List WireUnit) : List Byte :=
  [Config.startMark, s.chk, s.len] ++ us.flatMap WireUnit.bytes

/-- The bytes of a segment taken so far, START_MARK first; none while the block scans for one. -/
def Attempt (s : State) (part : List Byte) : Prop :=
  match s.st with
  | .idle => False
  | .awaitStart => part = []
  | .awaitChecksum => part = [Config.startMark]
  | .awaitLength => part = [Config.startMark, s.chk]
  | .inData => ∃ us, Region s us ∧ us.length < s.len.toNat ∧ part = regionBytes s us
  | .inEscape => ∃ us, Region s us ∧ us.length < s.len.toNat ∧ part = regionBytes s us ++ [Config.esc]
  | .awaitEnd => ∃ us, Region s us ∧ us.length = s.len.toNat ∧ part = regionBytes s us
  | .unused7 => False

/-- In state `s` the segment of `c` and `us` has been delivered with length `l`. -/
structure Delivered (s : State) (l c : Byte) (us : List WireUnit) : Prop where
  positive : 1 ≤ us.length
  cap : us.length ≤ 251
  length : l = BitVec.ofNat 8 us.length
  valid : ∀ u ∈ us, u.valid = true
  checksum : crc8 (us.map WireUnit.payload) = c
  read : ∀ k < us.length, s.buf.read k = (us.map WireUnit.payload).getD k 0x00#8

namespace Region

variable {s : State} {us : List WireUnit}

/-- The parse state, the time and the outputs are no part of what has been received. -/
theorem of_st (h : Region s us) (x : RxState) : Region { s with st := x } us :=
  ⟨h.positive, h.cap, h.valid, ⟨rfl, rfl, h.receiving.stored, h.receiving.crc⟩⟩

theorem of_takenAt (h : Region s us) (now : Nat) : Region (s.takenAt now) us :=
  ⟨h.positive, h.cap, h.valid, h.receiving.of_takenAt now s.st⟩

/-- The byte of one more unit is appended (42_receive_fsm.md R93, R94). -/
theorem attempt_appended (h : Region s us) (hlt : us.length < s.len.toNat) {u : WireUnit} (hu : u.valid = true) :
    Attempt (s.appended u.payload) (regionBytes s us ++ u.bytes) := by
  have hcap : (us.map WireUnit.payload).length < 251 := by simpa using hlt.trans_le h.cap
  have hrec := h.receiving.appended u.payload hcap
  have hst := h.receiving.st_appended u.payload hcap
  rw [← List.map_singleton, ← List.map_append] at hrec hst
  have hvalid : ∀ v ∈ us ++ [u], v.valid = true := by simpa [or_imp, forall_and] using ⟨h.valid, hu⟩
  have hregion : Region (s.appended u.payload) (us ++ [u]) := ⟨h.positive, h.cap, hvalid, hrec⟩
  have hbytes : regionBytes s us ++ u.bytes = regionBytes (s.appended u.payload) (us ++ [u]) := by
    simp [regionBytes]
  rcases Nat.lt_or_eq_of_le (Nat.succ_le_of_lt hlt) with hmore | hfull
  · rw [regionState_of_lt (by simpa using hmore)] at hst
    simp only [Attempt, hst]
    exact ⟨us ++ [u], hregion, by simpa using hmore, hbytes⟩
  · rw [regionState_of_eq (by simpa using hfull)] at hst
    simp only [Attempt, hst]
    exact ⟨us ++ [u], hregion, by simpa using hfull, hbytes⟩

/-- With no unit missing and the checksum matched, the region and END_MARK are a segment and it is delivered
(42_receive_fsm.md R95). -/
theorem delivered (h : Region s us) (hfull : us.length = s.len.toNat) (hc : s.crc = s.chk) :
    regionBytes s us ++ [Config.endMark] = segment s.chk us ∧ Delivered (s.deliverFrame s.len) s.len s.chk us := by
  have hlen : s.len = BitVec.ofNat 8 us.length := by simp [hfull]
  refine ⟨by rw [segment, ← hlen]; rfl, hfull ▸ h.positive, hfull ▸ h.cap, hlen, h.valid, ?_, fun k hk => ?_⟩
  · rw [← h.receiving.crc, hc]
  · exact h.receiving.read_eq (by simpa [hfull] using h.cap) (by simpa using hk)

end Region

/-! ## A byte in time -/

namespace Attempt

theorem of_takenAt {s : State} {part : List Byte} (h : Attempt s part) (now : Nat) :
    Attempt (s.takenAt now) part := by
  have htaken : (s.takenAt now).st = s.st := rfl
  cases hst : s.st <;> simp only [Attempt, htaken, hst] at h ⊢
  case inData | inEscape | awaitEnd =>
    obtain ⟨us, hregion, hlen, rfl⟩ := h
    exact ⟨us, hregion.of_takenAt now, hlen, rfl⟩
  all_goals exact h

theorem of_awaitStart {s : State} (hst : s.st = .awaitStart) : Attempt s [] := by simp [Attempt, hst]

theorem st_ne_idle {s : State} {part : List Byte} (h : Attempt s part) : s.st ≠ .idle := by
  intro hst
  simp [Attempt, hst] at h

/-- A row lengthens the attempt in silence, or the block scans again; then it has emitted READY only if the bytes of the
attempt are a whole segment. -/
theorem row {u t : State} {part : List Byte} {b : Byte} (h : Attempt u part) (hev : u.out.ev = .none)
    (hr : RowEffect u b t) :
    (Attempt t (part ++ [b]) ∧ t.out.ev = .none) ∨
      (t.st = .awaitStart ∧ ∀ l, t.out.ev = .ready l →
        ∃ c us, part ++ [b] = segment c us ∧ Delivered t l c us) := by
  cases hr with
  | idle hst => exact absurd hst h.st_ne_idle
  | start hst hb =>
    simp only [Attempt, hst] at h
    exact .inl ⟨by simp [Attempt, h, hb], hev⟩
  | skip hst hb => exact .inr ⟨hst, by simp [hev]⟩
  | chk hst =>
    simp only [Attempt, hst] at h
    exact .inl ⟨by simp [Attempt, h], hev⟩
  | len hst h0 hcap =>
    simp only [Attempt, hst] at h
    have hpos : 1 ≤ b.toNat := by bv_omega
    exact .inl ⟨⟨[], ⟨hpos, hcap, nofun, ⟨rfl, rfl, rfl, rfl⟩⟩, hpos, by simp [h, regionBytes]⟩, hev⟩
  | esc hst hb =>
    simp only [Attempt, hst] at h
    obtain ⟨us, hregion, hlt, rfl⟩ := h
    exact .inl ⟨⟨us, hregion.of_st .inEscape, hlt, by rw [hb]; rfl⟩, hev⟩
  | data hst hb hp =>
    simp only [Attempt, hst] at h
    obtain ⟨us, hregion, hlt, rfl⟩ := h
    exact .inl ⟨hregion.attempt_appended hlt (u := .plain b) (by simp [WireUnit.valid, hb]), hev⟩
  | edata hst hp =>
    simp only [Attempt, hst] at h
    obtain ⟨us, hregion, hlt, rfl⟩ := h
    rw [List.append_assoc]
    exact .inl ⟨hregion.attempt_appended hlt (u := .escaped b) rfl, hev⟩
  | ready hst hb hc =>
    simp only [Attempt, hst] at h
    obtain ⟨us, hregion, hfull, rfl⟩ := h
    refine .inr ⟨rfl, fun l hl => ⟨u.chk, us, ?_⟩⟩
    cases hl
    rw [hb]
    exact hregion.delivered hfull hc
  | len0 | lenovf | mark | crcError | noend => exact .inr ⟨rfl, nofun⟩

end Attempt

/-- A step of a FEED in time performs the row of its byte. -/
theorem rowEffect_of_step_feed {s t : State} {b : Byte} {now : Nat} (hidle : s.st ≠ .idle)
    (htime : timedOut s (now % 2 ^ s.params.tsW) = false) (h : step (s.present (opFeed b now)) = .next t) :
    RowEffect (s.takenAt now) b t := by
  rw [step_present, opFeed, decodeInput_feed] at h
  cases exec_effect rfl h with
  | feedIdle _ _ hst => exact absurd hst hidle
  | feedTimeout _ _ hlate => exact absurd (htime.symm.trans hlate) nofun
  | feedRow _ _ _ _ _ _ hr => exact hr

/-! ## A run of bytes in time -/

/-- The bytes `bs` fed from `s` at `ts` end in a segment that began in AWAIT_START and is delivered in `t`. -/
def EndsInSegment (s : State) (bs : List Byte) (ts : List Nat) (l : Byte) (t : State) : Prop :=
  ∃ before c us tr, bs = before ++ segment c us ∧ runTrace s (feedsAt before ts) = some tr ∧
    (finalState s tr).st = .awaitStart ∧ Delivered t l c us

/-- The segment may be the whole of the bytes. -/
theorem EndsInSegment.of_or {s t : State} {l : Byte} {bs : List Byte} {ts : List Nat} (hst : s.st = .awaitStart)
    (h : (∃ c us, bs = segment c us ∧ Delivered t l c us) ∨ EndsInSegment s bs ts l t) : EndsInSegment s bs ts l t := by
  rcases h with ⟨c, us, hbs, hdel⟩ | h
  · exact ⟨[], c, us, [], hbs, rfl, hst, hdel⟩
  · exact h

/-- A byte may come before. -/
theorem EndsInSegment.cons {s s' t : State} {l b : Byte} {now : Nat} {bs : List Byte} {ts : List Nat}
    (hstep : step (s.present (opFeed b now)) = .next s') (h : EndsInSegment s' bs ts l t) :
    EndsInSegment s (b :: bs) (now :: ts) l t := by
  obtain ⟨before, c, us, tr, rfl, hrun, hst, hdel⟩ := h
  exact ⟨b :: before, c, us, _, rfl, runTrace_cons.2 ⟨s', tr, hstep, hrun, rfl⟩, hst, hdel⟩

/-- A run of bytes in time that ends with READY completes the attempt it begins in to a segment, or ends in a later one. -/
theorem Attempt.run {s : State} {part bs : List Byte} {ts : List Nat} {tr : List Transition} {l : Byte}
    (h : Attempt s part) (hlen : ts.length = bs.length) (htime : InTime s ts)
    (hrun : runTrace s (feedsAt bs ts) = some tr) (hlast : (events tr).getLast? = some (.ready l)) :
    (∃ c us, part ++ bs = segment c us ∧ Delivered (finalState s tr) l c us) ∨
      EndsInSegment s bs ts l (finalState s tr) := by
  induction bs generalizing s part ts tr with
  | nil =>
    cases hrun
    cases hlast
  | cons b bs ih =>
    cases ts with
    | nil => cases hlen
    | cons now ts =>
      obtain ⟨t, trs, hstep, hrest, rfl⟩ := runTrace_cons.1 hrun
      have hr := rowEffect_of_step_feed h.st_ne_idle (htime.first now rfl) hstep
      have hrow := (h.of_takenAt now).row rfl hr
      cases bs with
      | nil =>
        cases hrest
        have hready : t.out.ev = .ready l := Option.some.inj hlast
        rcases hrow with ⟨_, hnone⟩ | ⟨_, hdone⟩
        · exact absurd (hready.symm.trans hnone) nofun
        · exact .inl (hdone l hready)
      | cons b' bs =>
        have hlast' : (events trs).getLast? = some (.ready l) := by
          obtain _ | ⟨now', ts⟩ := ts
          · cases hlen
          · obtain ⟨_, _, _, _, rfl⟩ := runTrace_cons.1 hrest
            exact hlast
        have hlater := fun {part'} (h' : Attempt t part') => ih h' (Nat.succ.inj hlen) (htime.tail hr) hrest hlast'
        rcases hrow with ⟨hlonger, _⟩ | ⟨hscan, _⟩
        · rw [List.append_cons]
          exact (hlater hlonger).imp_right (.cons hstep)
        · exact .inr (.cons hstep (.of_or hscan (hlater (.of_awaitStart hscan))))

/-- Settles O42: in AWAIT_START no attempt has begun, so the segment is one whose START_MARK the run took. -/
theorem readyOnlyAfterASegment : Obligations.ReadyOnlyAfterASegment := by
  intro s bs ts tr l hst hlen hgaps hrun hlast
  have htime : InTime s ts := .of_not_inProgress (inProgress_of_awaitStart hst) hgaps
  obtain ⟨before, c, us, tr0, hbs, hrun0, hst0, h⟩ :=
    EndsInSegment.of_or hst ((Attempt.of_awaitStart hst).run hlen htime hrun hlast)
  exact ⟨before, c, us, tr0, hbs, hrun0, hst0, h.positive, h.cap, h.length, h.valid, h.checksum, h.read⟩

end Sys2Proof.Machine
end

section
/-! A flipped bit in the payload region of a frame (42_receive_fsm.md R100). Where the flip leaves the framing alone the frame
is still a segment, with one payload byte changed, and no single byte change leaves the checksum as it was (40_checksum.md
R69). Where it makes a byte a mark, the rest of the frame is scanned, and a READY within it is possible. -/

namespace Sys2Proof.Machine

/-! ## The checksum of a list with one byte changed -/

/-- Two folds agree exactly if register and byte differ in the same bits. -/
theorem crc8Step_eq_iff (c c' b b' : Byte) : crc8Step c b = crc8Step c' b' ↔ c ^^^ c' = b ^^^ b' := by
  rw [← BitVec.xor_eq_zero_iff, ← crc8Step_xor, crc8Step_eq_zero_iff]

/-- The bytes of a list lose nothing of the register they are folded into. -/
theorem crc8From_inj {c c' : Byte} (q : List Byte) : crc8From c q = crc8From c' q ↔ c = c' := by
  induction q generalizing c c' with
  | nil => rfl
  | cons b q ih => rw [crc8From_cons, crc8From_cons, ih, crc8Step_eq_iff, BitVec.xor_self, BitVec.xor_eq_zero_iff]

/-- Lists that differ in one byte alone have different checksums. -/
theorem crc8_middle_inj (q0 q1 : List Byte) {x y : Byte} : crc8 (q0 ++ [x] ++ q1) = crc8 (q0 ++ [y] ++ q1) ↔ x = y := by
  simp only [crc8, crc8From_append, crc8From_inj, crc8From_cons, crc8From_nil]
  rw [crc8Step_eq_iff, BitVec.xor_self, eq_comm, BitVec.xor_eq_zero_iff]

/-! ## A flip that leaves the framing alone -/

theorem flipped_ne (y : Byte) {bit : Nat} (h : bit < 8) : y ^^^ (1#8 <<< bit) ≠ y := by
  intro heq
  have hbit := congrArg (·.getLsbD bit) heq
  simp [h] at hbit

theorem flatMap_bytes_encodedUnit (q : List Byte) : (q.map encodedUnit).flatMap WireUnit.bytes = escapePayload q := by
  simp only [escapePayload, List.flatMap_map, bytes_encodedUnit]

/-- The unit of `y` as the encoder frames it, with the byte `x` in its place. -/
def reframed (y x : Byte) : WireUnit := if Config.isReserved y then .escaped x else .plain x

theorem bytes_reframed (y x : Byte) : (reframed y x).bytes = if Config.isReserved y then [Config.esc, x] else [x] := by
  unfold reframed
  split <;> rfl

theorem payload_reframed (y x : Byte) : (reframed y x).payload = x := by
  unfold reframed
  split <;> rfl

theorem valid_reframed {y x : Byte} (h : Config.isReserved y = true ∨ Config.isReserved x = false) :
    (reframed y x).valid = true := by
  unfold reframed
  split
  · rfl
  · have hx : Config.isReserved x = false := h.resolve_left ‹_›
    simp [WireUnit.valid, hx]

/-- The units of a frame's payload `q0 ++ [y] ++ q1` with `x` received in the place of `y`. -/
def flippedUnits (q0 q1 : List Byte) (y x : Byte) : List WireUnit :=
  q0.map encodedUnit ++ [reframed y x] ++ q1.map encodedUnit

section
variable (q0 q1 : List Byte) (y x : Byte)

theorem length_flippedUnits : (flippedUnits q0 q1 y x).length = q0.length + 1 + q1.length := by
  simp only [flippedUnits, List.length_append, List.length_map, List.length_singleton]

theorem payload_flippedUnits : (flippedUnits q0 q1 y x).map WireUnit.payload = q0 ++ [x] ++ q1 := by
  simp only [flippedUnits, List.map_append, map_payload_encodedUnit, List.map_singleton, payload_reframed]

theorem bytes_flippedUnits :
    (flippedUnits q0 q1 y x).flatMap WireUnit.bytes =
      escapePayload q0 ++ (if Config.isReserved y then [Config.esc, x] else [x]) ++ escapePayload q1 := by
  simp only [flippedUnits, List.flatMap_append, List.flatMap_singleton, flatMap_bytes_encodedUnit, bytes_reframed]

theorem valid_flippedUnits (h : Config.isReserved y = true ∨ Config.isReserved x = false) :
    ∀ u ∈ flippedUnits q0 q1 y x, u.valid = true := by
  have hencoded : ∀ q : List Byte, ∀ u ∈ q.map encodedUnit, u.valid = true := fun _ =>
    List.forall_mem_map.2 fun b _ => valid_encodedUnit b
  simp only [flippedUnits, List.forall_mem_append, List.forall_mem_singleton]
  exact ⟨⟨hencoded q0, valid_reframed h⟩, hencoded q1⟩

/-- The flip changes no framing, so the number of bytes on the wire is the frame's. -/
theorem length_segment_flippedUnits (c : Byte) (hcap : q0.length + 1 + q1.length ≤ 251) :
    (segment c (flippedUnits q0 q1 y x)).length = (encodeFrame (q0 ++ [y] ++ q1)).length := by
  have hlen : (q0 ++ [y] ++ q1).length ≤ 251 := by
    rwa [List.length_append, List.length_append, List.length_singleton]
  rw [encodeFrame_eq_segment (by simp) hlen, segment, segment, length_frameBytes, length_frameBytes]
  simp only [bytes_flippedUnits, flatMap_bytes_encodedUnit, escapePayload, List.flatMap_append, List.flatMap_singleton,
    escapeByte, List.length_append]
  split <;> rfl

end

/-- Settles O44: the flipped frame is a segment whose payload differs from the one its CHECKSUM is of. -/
theorem flippedDataBitGivesCrcError : Obligations.FlippedDataBitGivesCrcError := by
  intro s q0 q1 y bit ts hst hcap hbit hframing hlen hgaps
  set x := y ^^^ (1#8 <<< bit)
  have hx : x ≠ y := flipped_ne y hbit
  have hunits := length_flippedUnits q0 q1 y x
  have hcrc : crc8 (q0 ++ [x] ++ q1) ≠ crc8 (q0 ++ [y] ++ q1) := (crc8_middle_inj q0 q1).not.2 hx
  have htakes := takes_segment (crc8 (q0 ++ [y] ++ q1)) hst (us := flippedUnits q0 q1 y x) (by omega) (by omega)
    (valid_flippedUnits q0 q1 y x hframing)
  rw [payload_flippedUnits, if_neg hcrc] at htakes
  rw [← length_segment_flippedUnits q0 q1 y x _ hcap] at hlen
  obtain ⟨tr, hrun, hevents, _⟩ := htakes.run hlen (.of_not_inProgress (inProgress_of_awaitStart hst) hgaps)
  rw [segment, hunits, bytes_flippedUnits] at hrun
  exact ⟨tr, hrun, by rw [hevents, hlen]⟩

/-! ## A flip that makes an END_MARK -/

/-- Bytes taken all at one time leave no gap. -/
theorem gapsWithin_replicate (p : Params) (tmo n t : Nat) : GapsWithin p tmo (List.replicate n t) := by
  intro k hk
  rw [List.length_replicate] at hk
  simp [elapsed, List.getD_eq_getElem?_getD, hk, Nat.lt_of_succ_lt hk]

/-- A payload that holds the fields of another frame after its second byte: the START_MARK is escaped, the CHECKSUM 0x18,
the LENGTH and the payload byte 0x41 need no ESC. -/
def nestedPayload : List Byte := [0x54#8, 0xAA#8, 0x18#8, 0x01#8, 0x41#8]

/-- The reset state with reception started. -/
def scanningAtReset : State := { State.reset with st := .awaitStart }

/-- The frame of `nestedPayload` with bit 0 of its first payload byte flipped: that byte is an END_MARK, and what follows the
ESC is the frame of 0x41. -/
def flippedNestedFrame : List Byte :=
  (encodeFrame nestedPayload).set 3 ((encodeFrame nestedPayload).getD 3 0x00#8 ^^^ (1#8 <<< 0))

theorem events_flippedNestedFrame :
    (runTrace scanningAtReset (feedsAt flippedNestedFrame (List.replicate 10 0))).map events =
      some (List.replicate 3 .none ++ [.error .length] ++ List.replicate 5 .none ++ [.ready 1#8]) := by
  decide +kernel

/-- Refutes O45: the bytes of `flippedNestedFrame`, all at time 0 from AWAIT_START, give READY(1) at the last one. -/
theorem not_flippedPayloadBitNeverGivesReady : ¬ Obligations.FlippedPayloadBitNeverGivesReady := by
  intro h
  obtain ⟨tr, hrun, hevents⟩ := Option.map_eq_some_iff.1 events_flippedNestedFrame
  have hlen : (encodeFrame nestedPayload).length = 10 := by decide +kernel
  have hnever := h scanningAtReset nestedPayload 3 0 (List.replicate 10 0) tr rfl (by decide) (by decide) (Nat.le_refl 3)
    (by omega) (by omega) (by simp [hlen]) (gapsWithin_replicate _ _ 10 0) hrun 1#8
  exact hnever (by simp [hevents])

end Sys2Proof.Machine
end

section
/-! The port operations one by one (43_port_operations.md R102 to R112). Each case of what an operation can do is what it does
(`PortEffect.exec_eq`), so an operation other than FEED is settled by naming its case; FEED also needs what the byte stage
leaves of `last_t`, `tmo` and `st`. -/

namespace Sys2Proof.Machine

/-- Settles O13, by the two laws of the step. -/
theorem stepPerformsThePresentedInput : Obligations.StepPerformsThePresentedInput :=
  ⟨fun _ _ _ hx => step_cons hx, fun _ hx => step_nil hx⟩

/-! ## Operations other than FEED -/

/-- Settles O23: the one case of NOP. -/
theorem nopChangesNothing : Obligations.NopChangesNothing := fun _ h7 => (PortEffect.nop h7).exec_eq

/-- Settles O24, by the two outcomes of the timeout test. -/
theorem tickChecksTheTimeout : Obligations.TickChecksTheTimeout := fun s now h7 =>
  ⟨fun hlate => (PortEffect.tickTimeout now ((timedOut_iff s _).2 hlate)).exec_eq,
    fun htime => (PortEffect.tick now h7 ((timedOut_false_iff s _).2 htime)).exec_eq⟩

/-- Settles O26: START_RX in IDLE, START_RX elsewhere, and STOP_RX. -/
theorem startAndStopReception : Obligations.StartAndStopReception := fun _ h7 =>
  ⟨fun hidle => (PortEffect.startIdle hidle).exec_eq, fun hidle => (PortEffect.startRx h7 hidle).exec_eq,
    (PortEffect.stopRx h7).exec_eq⟩

/-- Settles O27: the TICK is made from a state whose `tmo` is already the new one. -/
theorem setTimeoutTakesEffectAtOnce : Obligations.SetTimeoutTakesEffectAtOnce := by
  intro s v now h7
  refine ⟨_, (PortEffect.setTimeout v h7).exec_eq, rfl, fun hin hlate => ?_⟩
  have htick : timedOut { s.clearOut with tmo := v % 2 ^ s.params.tsW } (now % 2 ^ s.params.tsW) = true :=
    (timedOut_iff _ _).2 ⟨hin, hlate⟩
  exact (PortEffect.tickTimeout now htick).exec_eq

theorem Memory.read_of_lt (m : Memory) {i : Nat} (h : i < Config.bufCap) : m.read i = m.cell i := if_pos h

/-- An index that names no cell reads 0 (20_memory.md R35). -/
theorem Memory.read_of_le (m : Memory) {i : Nat} (h : Config.bufCap ≤ i) : m.read i = 0x00#8 := if_neg h.not_gt

/-- Settles O28: the byte read, by whether the index names a cell. -/
theorem readBufReturnsTheCell : Obligations.ReadBufReturnsTheCell := by
  intro s i h7
  have hread := (PortEffect.readBuf i h7).exec_eq
  constructor
  · intro hi
    rwa [Memory.read_of_lt s.buf hi] at hread
  · intro hi
    rwa [Memory.read_of_le s.buf hi] at hread

/-- Settles O29: the STATUS word is the layout of R26. -/
theorem readStatusReturnsTheStatusWord : Obligations.ReadStatusReturnsTheStatusWord := fun _ h7 =>
  (PortEffect.readStatus h7).exec_eq

/-! ## The elapsed time -/

theorem natCast_elapsed (p : Params) (now last : Nat) :
    (elapsed p now last : Int) = ((now : Int) - last) % (2 ^ p.tsW : Nat) :=
  Int.toNat_of_nonneg (Int.emod_nonneg _ (by positivity))

theorem elapsed_lt (p : Params) (now last : Nat) : elapsed p now last < 2 ^ p.tsW := by
  rw [← Int.ofNat_lt, natCast_elapsed]
  exact Int.emod_lt_of_pos _ (by positivity)

/-- The elapsed time takes `last_t` to `now`, modulo 2^TS_W. -/
theorem add_elapsed_modEq (p : Params) (now last : Nat) : last + elapsed p now last ≡ now [MOD 2 ^ p.tsW] := by
  rw [← Int.natCast_modEq_iff, Nat.cast_add, natCast_elapsed]
  calc (last : Int) + ((now : Int) - last) % (2 ^ p.tsW : Nat)
      ≡ last + (now - last) [ZMOD (2 ^ p.tsW : Nat)] := (Int.mod_modEq _ _).add_left _
    _ = now := add_sub_cancel _ _

/-- Settles O25: two numbers below 2^TS_W that take `last_t` to the same time are equal. -/
theorem elapsedIsTheWrappedDifference : Obligations.ElapsedIsTheWrappedDifference := by
  intro p now last
  refine ⟨elapsed_lt p now last, add_elapsed_modEq p now last, fun e he hsum => ?_⟩
  have hsame : last + e ≡ last + elapsed p now last [MOD 2 ^ p.tsW] :=
    Nat.ModEq.trans hsum (add_elapsed_modEq p now last).symm
  exact (hsame.add_left_cancel' last).eq_of_lt_of_lt he (elapsed_lt p now last)

/-! ## FEED -/

theorem performRow_eq_exec {i : Instr} (hi : i.isRxRow = true) (s : State) : performRow i s = exec i s := by
  cases i with
  | nop | feed _ _ | tick _ | startRx | stopRx | setTimeout _ | readBuf _ | readStatus | reset => cases hi
  | _ => rfl

/-- The byte stage is the instruction its key decodes to (42_receive_fsm.md R81). -/
theorem rxByte_eq_exec {s : State} {b : Byte} {i : Instr} (h : decodeKey (rxKey s b) = .ok i) :
    rxByte s b = exec i s := by
  rw [rxByte, h]
  exact performRow_eq_exec (decodeKey_isRxRow h) s

/-- A frame in progress takes bytes. -/
theorem st_of_inProgress {s : State} (h : inProgress s = true) : s.st ≠ .idle ∧ s.st ≠ .unused7 := by
  constructor <;> intro hst <;> simp [inProgress, hst] at h

/-- A FEED whose byte is taken and not late performs the row its key decodes to. -/
theorem exec_feed_of_inTime {s : State} (b : Byte) (now : Nat) (hidle : s.st ≠ .idle) (h7 : s.st ≠ .unused7)
    (htime : timedOut s (now % 2 ^ s.params.tsW) = false) :
    ∃ i, decodeKey (mkKey (stCode s.st) b) = .ok i ∧ exec (.feed b now) s = exec i { s with
      lastT := now % 2 ^ s.params.tsW, out := { acc := true, ev := .none, rdata := 0#32 } } := by
  obtain ⟨i, hi, _⟩ := decodeKey_encodes s.st b
  refine ⟨i, hi, ?_⟩
  have hfeed : exec (.feed b now) s = rxByte (s.takeByte (now % 2 ^ s.params.tsW)) b := execFeed_taken b now hidle h7
  rw [hfeed, takeByte_inTime htime]
  exact rxByte_eq_exec hi

/-- Settles O14: the byte is not taken, taken after a timeout, or taken in time. -/
theorem feedPerformsTheSelectedRow : Obligations.FeedPerformsTheSelectedRow := by
  intro s b now
  refine ⟨fun hidle => (PortEffect.feedIdle b now hidle).exec_eq, fun hin hlate => ?late, fun h => ?inTime⟩
  case late => exact (PortEffect.feedTimeout b now ((timedOut_iff s _).2 ⟨hin, hlate⟩)).exec_eq
  case inTime =>
    rcases h with hst | ⟨hin, hle⟩
    · exact exec_feed_of_inTime b now (by simp [hst]) (by simp [hst])
        (timedOut_not_inProgress _ (inProgress_of_awaitStart hst))
    · exact exec_feed_of_inTime b now (st_of_inProgress hin).1 (st_of_inProgress hin).2
        ((timedOut_false_iff s _).2 fun hlate => hle.not_gt hlate.2)

/-- No row leads to the unused state code (10_state.md R17). -/
theorem RowEffect.next_st_ne_unused7 {u t : State} {b : Byte} (h : RowEffect u b t) : t.st ≠ .unused7 := by
  cases h with
  | idle hst | skip hst _ => simp [hst]
  | data _ _ _ | edata _ _ =>
    rw [State.appended_st]
    split <;> nofun
  | _ => nofun

/-- What every FEED leaves in `last_t`, `tmo` and `st` (R104): the time of a taken byte, the same timeout, a state in use. -/
theorem PortEffect.feed_lastT_tmo_st {s t : State} {b : Byte} {now : Nat} (h : PortEffect s (.feed b now) t) :
    t.lastT = (if s.st = .idle then s.lastT else now % 2 ^ s.params.tsW) ∧ t.tmo = s.tmo ∧ t.st ≠ .unused7 := by
  cases h with
  | feedIdle _ _ hidle => exact ⟨(if_pos hidle).symm, rfl, by simp [hidle]⟩
  | feedTimeout _ _ hlate => exact ⟨(if_neg (st_of_timedOut hlate).1).symm, rfl, by dsimp only; split <;> nofun⟩
  | feedRow _ _ _ hidle _ _ hr =>
    exact ⟨hr.lastT_tmo.1.trans (if_neg hidle).symm, hr.lastT_tmo.2, hr.next_st_ne_unused7⟩

/-- Settles O15: a FEED completes, and each register is read off the cases of what a FEED can do. -/
theorem feedCompletes : Obligations.FeedCompletes := by
  intro s b now h7 hp
  obtain ⟨t, ht⟩ := execFeed_completes b now h7 hp
  have he : PortEffect s (.feed b now) t := exec_effect rfl ht
  have hacc : t.out.acc = true ↔ s.st ≠ .idle := he.acc_iff.trans (and_iff_right ⟨b, now, rfl⟩)
  obtain ⟨hlast, htmo, hst⟩ := he.feed_lastT_tmo_st
  obtain ⟨hparams, hinputs⟩ := he.params_inputs
  exact ⟨t, ht, hacc, he.rdata_eq_zero nofun nofun, hlast, hparams, htmo, hinputs, hst⟩

end Sys2Proof.Machine
end

section
/-! With no frame in progress nothing is reported (43_port_operations.md R114, R115): no operation emits an event, and the one
that begins a frame is the FEED of START_MARK in AWAIT_START. -/

namespace Sys2Proof.Machine

/-- With no frame in progress a row of the byte stage is silent, and leaves `st` unless it takes START_MARK. -/
theorem RowEffect.silent {u t : State} {b : Byte} (h : RowEffect u b t) (hin : inProgress u = false) :
    t.out.ev = u.out.ev ∧ (t.st = u.st ∨ (u.st = .awaitStart ∧ b = Config.startMark)) := by
  cases h with
  | idle _ | skip _ _ => exact ⟨rfl, .inl rfl⟩
  | start hst hb => exact ⟨rfl, .inr ⟨hst, hb⟩⟩
  | chk hst | len0 hst _ | lenovf hst _ | len hst _ _ | esc hst _ | mark hst _ | data hst _ _ | edata hst _
  | ready hst _ _ | crcError hst _ _ | noend hst _ => simp [inProgress, hst] at hin

theorem inProgress_congr {s t : State} (h : t.st = s.st) : inProgress t = inProgress s := by simp only [inProgress, h]

/-- With no frame in progress an operation is silent, and none is in progress after it unless it fed START_MARK in
AWAIT_START. -/
theorem PortEffect.silent {s t : State} {i : Instr} (h : PortEffect s i t) (hin : inProgress s = false) :
    t.out.ev = .none ∧
      (inProgress t = false ∨ (s.st = .awaitStart ∧ ∃ now, i = .feed Config.startMark now)) := by
  cases h with
  | feedTimeout _ _ hlate | tickTimeout _ hlate =>
    exact absurd ((timedOut_not_inProgress _ hin).symm.trans hlate) nofun
  | feedRow b now t _ _ _ hr =>
    obtain ⟨hev, hst | ⟨hst, rfl⟩⟩ := hr.silent hin
    · exact ⟨hev, .inl ((inProgress_congr hst).trans hin)⟩
    · exact ⟨hev, .inr ⟨hst, now, rfl⟩⟩
  | startIdle _ | stopRx _ | reset => exact ⟨rfl, .inl rfl⟩
  | _ => exact ⟨rfl, .inl hin⟩

/-- Settles O31: neither IDLE nor AWAIT_START is a frame in progress. -/
theorem noEventWithNoFrameInProgress : Obligations.NoEventWithNoFrameInProgress := by
  intro i s t hi hst h
  have hin : inProgress s = false := by rcases hst with hst | hst <;> simp [inProgress, hst]
  exact ((exec_effect hi h).silent hin).1

/-- A step that feeds START_MARK in AWAIT_START starts an attempt (60_exceptions.md R127). -/
theorem startsAttempt_of_feed {s t : State} {x : PortInput} {now : Nat} (hst : s.st = .awaitStart)
    (hx : decodeInput x = .feed Config.startMark now) : Transition.startsAttempt ⟨s, x, t⟩ = true := by
  obtain ⟨hrst, hop, harg, _⟩ := decodeInput_eq_feed hx
  simp [Transition.startsAttempt, hrst, hop, harg, hst]

/-- A step that starts no attempt is silent and leaves no frame in progress where there is none. -/
theorem step_silent {s t : State} {x : PortInput} (hin : inProgress s = false) (h : step (s.present x) = .next t)
    (hx : Transition.startsAttempt ⟨s, x, t⟩ = false) : t.out.ev = .none ∧ inProgress t = false := by
  have he : PortEffect { s with inputs := [] } (decodeInput x) t := exec_effect (decodeInput_isRxRow x) h
  obtain ⟨hev, hquiet | ⟨hst, now, hfeed⟩⟩ := he.silent hin
  · exact ⟨hev, hquiet⟩
  · exact absurd (hx.symm.trans (startsAttempt_of_feed hst hfeed)) nofun

/-- Settles O47, by induction on what is presented. -/
theorem noSecondTimeoutBeforeANewStart : Obligations.NoSecondTimeoutBeforeANewStart := by
  intro s xs tr hin hrun hstart
  induction xs generalizing s tr with
  | nil =>
    cases hrun
    exact ⟨nofun, hin⟩
  | cons x xs ih =>
    obtain ⟨t, trs, hstep, hrest, rfl⟩ := runTrace_cons.1 hrun
    obtain ⟨hfirst, hlater⟩ := List.forall_mem_cons.1 hstart
    obtain ⟨hev, hquiet⟩ := step_silent hin hstep hfirst
    obtain ⟨hevents, hfinal⟩ := ih t trs hquiet hrest hlater
    exact ⟨List.forall_mem_cons.2 ⟨hev, hevents⟩, hfinal⟩

end Sys2Proof.Machine
end

section
/-! How a frame attempt ends (60_exceptions.md section 3 and R127). An operation that emits an event resets the frame it
reports and keeps what R119 does not write; STATUS then shows the scanning state. One step keeps the attempts in balance:
what it starts and what was in progress is what it resolves, what it aborts and what is in progress after it. -/

namespace Sys2Proof.Machine

/-! ## An event ends the attempt -/

/-- `t` is `s` after `reset_frame()` (60_exceptions.md R119), but for the parse state, the time of the last byte and the
outputs: only the LENGTH byte that fails the frame is kept in `len` (42_receive_fsm.md R87, R88). -/
structure FrameReset (s t : State) : Prop where
  pos : t.pos = 0x00#8
  crc : t.crc = 0x00#8
  buf : t.buf = s.buf
  chk : t.chk = s.chk
  tmo : t.tmo = s.tmo
  len : s.st ≠ .awaitLength → t.len = s.len

/-- A row that emits an event resets the frame and scans again (R119, R120). -/
theorem RowEffect.frameReset {u t : State} {b : Byte} (h : RowEffect u b t) (hu : u.out.ev = .none)
    (hev : t.out.ev ≠ .none) : FrameReset u t ∧ t.st = .awaitStart := by
  cases h with
  | len0 hst _ | lenovf hst _ => exact ⟨⟨rfl, rfl, rfl, rfl, rfl, fun hne => absurd hst hne⟩, rfl⟩
  | mark _ _ | ready _ _ _ | crcError _ _ _ | noend _ _ => exact ⟨⟨rfl, rfl, rfl, rfl, rfl, fun _ => rfl⟩, rfl⟩
  | idle _ | start _ _ | skip _ _ | chk _ | len _ _ _ | esc _ _ | data _ _ _ | edata _ _ => exact absurd hu hev

/-- An operation that emits an event resets the frame; it scans again, unless it fed START_MARK to a stalled frame. -/
theorem PortEffect.frameReset {s t : State} {i : Instr} (h : PortEffect s i t) (hev : t.out.ev ≠ .none) :
    FrameReset s t ∧ (t.st = .awaitStart ∨
      (t.st = .awaitChecksum ∧ t.out.ev = .error .timeout ∧ ∃ now, i = .feed Config.startMark now)) := by
  cases h with
  | feedTimeout b now _ =>
    refine ⟨⟨rfl, rfl, rfl, rfl, rfl, fun _ => rfl⟩, ?_⟩
    by_cases hb : b = Config.startMark
    · exact .inr ⟨if_pos hb, rfl, now, by rw [hb]⟩
    · exact .inl (if_neg hb)
  | feedRow _ _ _ _ _ _ hr =>
    obtain ⟨⟨hpos, hcrc, hbuf, hchk, htmo, hlen⟩, hst⟩ := hr.frameReset rfl hev
    exact ⟨⟨hpos, hcrc, hbuf, hchk, htmo, hlen⟩, .inl hst⟩
  | tickTimeout _ _ => exact ⟨⟨rfl, rfl, rfl, rfl, rfl, fun _ => rfl⟩, .inl rfl⟩
  | _ => exact absurd rfl hev

/-- An operation that emits an event had a frame in progress (60_exceptions.md R126). -/
theorem PortEffect.inProgress_of_event {s t : State} {i : Instr} (h : PortEffect s i t) (hev : t.out.ev ≠ .none) :
    inProgress s = true := by
  by_contra hin
  exact hev (h.silent (Bool.eq_false_of_not_eq_true hin)).1

/-- Settles O32, over the operations that emit an event. -/
theorem anEventEndsTheAttempt : Obligations.AnEventEndsTheAttempt := by
  intro i s t hi h hev
  have he : PortEffect s i t := exec_effect hi h
  obtain ⟨⟨hpos, hcrc, hbuf, hchk, htmo, hlen⟩, hst⟩ := he.frameReset hev
  exact ⟨he.inProgress_of_event hev, hpos, hcrc, hbuf, hchk, htmo, hlen, hst⟩

/-- The low byte of STATUS in AWAIT_START: STATE = 1, RX_EN = 1, BUSY = 0 (10_state.md R26). -/
theorem status_low_awaitStart (x : BitVec 24) :
    x ++ 0#3 ++ BitVec.ofBool false ++ BitVec.ofBool true ++ 1#3 = x ++ 0x09#8 := by
  rw [BitVec.append_assoc, BitVec.append_assoc, BitVec.append_assoc]
  rfl

/-- The STATUS word of a block that scans with `pos` = 0. -/
theorem statusWord_scanning {s : State} (hst : s.st = .awaitStart) (hpos : s.pos = 0x00#8) :
    statusWord s = s.chk ++ 0x00#8 ++ s.len ++ 0x09#8 := by
  rw [statusWord, inProgress_of_awaitStart hst, (rxEnabled_iff s).2 (by simp [hst]), hst, hpos]
  exact status_low_awaitStart _

/-- Settles O33: READ_STATUS reads out a scanning block whose frame has been reset. -/
theorem statusAfterAnError : Obligations.StatusAfterAnError := by
  intro i s t k hi h hev hst
  have hreset : FrameReset s t := ((exec_effect hi h).frameReset (by simp [hev])).1
  rw [← statusWord_scanning hst hreset.pos]
  exact (PortEffect.readStatus (by simp [hst])).exec_eq

/-! ## One operation keeps the attempts in balance -/

/-- The operation takes START_MARK where a frame begins: in AWAIT_START, or after a timeout (60_exceptions.md R127). -/
def startsOn (s : State) : Instr → Bool
  | .feed b now => b == Config.startMark && (s.st == .awaitStart || timedOut s (timeOperand s.params now))
  | _ => false

/-- The operation discards a frame in progress with no event: STOP_RX or reset (60_exceptions.md R125). -/
def abortsOn (s : State) : Instr → Bool
  | .stopRx | .reset => inProgress s
  | _ => false

/-- The attempt the operation `i` starts in `s` and the one in progress there are the one it resolves with an event, the one
it aborts, and the one in progress in `t`. -/
def Balanced (s : State) (i : Instr) (t : State) : Prop :=
  (if startsOn s i then 1 else 0) + (if inProgress s then 1 else 0) =
    (if t.out.ev != .none then 1 else 0) + (if abortsOn s i then 1 else 0) + (if inProgress t then 1 else 0)

theorem inProgress_appended (s : State) (b : Byte) : inProgress (s.appended b) = true := by
  rw [inProgress_iff, State.appended_st]
  split <;> simp

/-- A row of the byte stage starts an attempt, goes on as it was, or resolves an attempt (42_receive_fsm.md R84 to R96). -/
theorem RowEffect.balanced {u t : State} {b : Byte} (h : RowEffect u b t) (hu : u.out.ev = .none) :
    (if b == Config.startMark && u.st == .awaitStart then 1 else 0) + (if inProgress u then 1 else 0) =
      (if t.out.ev != .none then 1 else 0) + (if inProgress t then 1 else 0) := by
  cases h with
  | start hst hb | skip hst hb => simp [inProgress, hst, hb, hu]
  | idle hst | chk hst | len hst _ _ | esc hst _ => simp [inProgress, hst, hu]
  | data hst _ _ | edata hst _ =>
    have hin : inProgress u = true := (inProgress_iff u).2 (by simp [hst])
    simp [inProgress_appended, hin, hst, hu]
  | len0 hst _ | lenovf hst _ | mark hst _ | ready hst _ _ | crcError hst _ _ | noend hst _ => simp [inProgress, hst]

/-- An operation starts an attempt, goes on as it was, resolves an attempt or aborts one; a FEED of START_MARK to a stalled
frame resolves one attempt and starts the next. -/
theorem PortEffect.balanced {s t : State} {i : Instr} (h : PortEffect s i t) : Balanced s i t := by
  cases h with
  | feedIdle b now hidle =>
    have hstart : startsOn s (.feed b now) = false := by simp [startsOn, timedOut, inProgress, hidle]
    rw [Balanced, hstart]
    rfl
  | feedTimeout b now hlate =>
    rw [Balanced, ((timedOut_iff s _).1 hlate).1]
    by_cases hb : b = Config.startMark <;> simp [startsOn, abortsOn, inProgress, hlate, hb]
  | feedRow b now t _ _ htime hr =>
    rw [Balanced, startsOn, timeOperand_eq, htime, Bool.or_false]
    exact hr.balanced rfl
  | tickTimeout now hlate =>
    rw [Balanced, ((timedOut_iff s _).1 hlate).1]
    rfl
  | startIdle hidle =>
    have hin : inProgress s = false := by simp [inProgress, hidle]
    rw [Balanced, hin]
    rfl
  | nop _ | tick _ _ _ | startRx _ _ | stopRx _ | setTimeout _ _ | readBuf _ _ | readStatus _ | reset => rfl

/-! ## A run -/

/-- A step starts an attempt where the operation it decodes to does. -/
theorem startsAttempt_eq (s t : State) (x : PortInput) :
    Transition.startsAttempt ⟨s, x, t⟩ = startsOn s (decodeInput x) := by
  by_cases hfeed : x.rst = false ∧ wordOp x.w = 1#3
  · obtain ⟨hrst, hop⟩ := hfeed
    simp [Transition.startsAttempt, startsOn, decodeInput, decodeOp, hrst, hop]
  · have hne : ∀ b now, decodeInput x ≠ .feed b now := fun b now h =>
      hfeed ⟨(decodeInput_eq_feed h).1, (decodeInput_eq_feed h).2.1⟩
    have hnone : startsOn s (decodeInput x) = false := by
      cases hi : decodeInput x with
      | feed b now => exact absurd hi (hne b now)
      | _ => rfl
    have hword : (!x.rst && wordOp x.w == 1#3) = false := by simpa using hfeed
    rw [hnone, Transition.startsAttempt, hword]
    rfl

/-- A step aborts an attempt where the operation it decodes to does. -/
theorem abortsAttempt_eq (s t : State) (x : PortInput) :
    Transition.abortsAttempt ⟨s, x, t⟩ = abortsOn s (decodeInput x) := by
  rw [Transition.abortsAttempt]
  cases decodeInput x with
  | stopRx | reset => exact Bool.and_true _
  | _ => exact Bool.and_false _

/-- The balance of a step, in the terms of R127. -/
theorem step_balanced {s t : State} {x : PortInput} (h : step (s.present x) = .next t) :
    (if Transition.startsAttempt ⟨s, x, t⟩ then 1 else 0) + (if inProgress s then 1 else 0) =
      (if Transition.resolvesAttempt ⟨s, x, t⟩ then 1 else 0) + (if Transition.abortsAttempt ⟨s, x, t⟩ then 1 else 0) +
        (if inProgress t then 1 else 0) := by
  have he : PortEffect { s with inputs := [] } (decodeInput x) t := exec_effect (decodeInput_isRxRow x) h
  rw [startsAttempt_eq, abortsAttempt_eq]
  exact he.balanced

/-- Settles O48: the balances of the steps add up, by induction on what is presented. -/
theorem everyAttemptEndsOnce : Obligations.EveryAttemptEndsOnce := by
  intro s xs tr hrun
  induction xs generalizing s tr with
  | nil =>
    cases hrun
    rfl
  | cons x xs ih =>
    obtain ⟨t, trs, hstep, hrest, rfl⟩ := runTrace_cons.1 hrun
    have hfirst := step_balanced hstep
    have hlater := ih t trs hrest
    rw [List.countP_cons, List.countP_cons, List.countP_cons]
    change _ = _ + (if inProgress (finalState t trs) then 1 else 0)
    omega

end Sys2Proof.Machine
end

section
/-! Reset, and a way out of every stall (70_reset_and_hazards.md R130, R131, R140). Reset writes constants, so what it leaves
does not depend on the registers before it. A stalled frame is ended by STOP_RX, or by a TICK at the first late time, which is
a time only while `tmo` is below the largest elapsed time. -/

namespace Sys2Proof.Machine

/-! ## Reset -/

/-- The input `rst` overrides the operation presented with it (30_encoding.md R57). -/
theorem step_rst {s : State} {w : OpWord} {t : Nat} {xs : List PortInput}
    (h : s.inputs = { rst := true, w := w, t := t } :: xs) : step s = exec .reset { s with inputs := xs } := by
  rw [step_cons h, decodeInput_rst]

/-- Settles O11: the one case of RESET, from any state and from power-on, and the override. -/
theorem resetSetsTheRegisters : Obligations.ResetSetsTheRegisters := fun _ =>
  ⟨PortEffect.reset.exec_eq, fun _ _ _ h => step_rst h, fun _ => PortEffect.reset.exec_eq⟩

/-- Settles O12: the second RESET writes the constants that already stand there. -/
theorem resetIsIdempotent : Obligations.ResetIsIdempotent := fun _ =>
  ⟨_, PortEffect.reset.exec_eq, PortEffect.reset.exec_eq, rfl, rfl, rfl, rfl⟩

/-! ## Progress -/

/-- At a time presented as `last_t + e` the time elapsed is `e`, even where the sum wraps (43_port_operations.md R103). -/
theorem elapsed_add_mod {p : Params} {e : Nat} (last : Nat) (he : e < 2 ^ p.tsW) :
    elapsed p ((last + e) % 2 ^ p.tsW) last = e := by
  obtain ⟨_, _, hunique⟩ := elapsedIsTheWrappedDifference p ((last + e) % 2 ^ p.tsW) last
  exact (hunique e he (Nat.mod_mod _ _).symm).symm

/-- The first late time of a frame in progress, where the elapsed time can exceed `tmo`. -/
theorem timedOut_at_first_late_time {s : State} (hin : inProgress s = true) (htmo : s.tmo + 1 < 2 ^ s.params.tsW) :
    timedOut s ((s.lastT + s.tmo + 1) % 2 ^ s.params.tsW) = true := by
  rw [timedOut_iff, Nat.add_assoc, elapsed_add_mod s.lastT htmo]
  exact ⟨hin, Nat.lt_succ_self _⟩

/-- With the largest `tmo` the elapsed time never exceeds it (70_reset_and_hazards.md R140). -/
theorem timedOut_false_of_largest_tmo {s : State} (htmo : s.tmo + 1 = 2 ^ s.params.tsW) (now : Nat) :
    timedOut s now = false := by
  have hle : elapsed s.params now s.lastT ≤ s.tmo :=
    Nat.le_of_lt_succ ((elapsed_lt s.params now s.lastT).trans_eq htmo.symm)
  exact (timedOut_false_iff s now).2 fun hlate => hle.not_gt hlate.2

/-- Settles O53: STOP_RX then START_RX from IDLE, the TICK at the first late time, and no late time at all. -/
theorem aStalledFrameCanBeEnded : Obligations.AStalledFrameCanBeEnded := by
  intro s hs
  refine ⟨?restart, fun hin htmo => ?tick, timedOut_false_of_largest_tmo⟩
  case restart => exact ⟨_, _, (PortEffect.stopRx hs.known).exec_eq, (PortEffect.startIdle rfl).exec_eq, rfl⟩
  case tick => exact ⟨_, (PortEffect.tickTimeout _ (timedOut_at_first_late_time hin htmo)).exec_eq, rfl, rfl⟩

end Sys2Proof.Machine
end
